-- ==== Sys2Proof/Word.lean ====
section
/-! DEFINITION. The register word (spec R8 REGW, R11). -/

namespace Sys2Proof

/-- R8 (REGW), R11: every register of the register port is one 32-bit word; bit 31 is the most significant. -/
abbrev Word := BitVec 32

end Sys2Proof
end

