-- ==== Sys2Proof/Syntax.lean ====
section
/-! DEFINITION. The command set (R104): one constructor per row of the opcode table. Commands have no immediates and no
register-number fields (R101): all operands are in fixed argument registers, so no constructor has an argument. -/

namespace Sys2Proof

/-- R104: the 20 rows of the command table (17 opcodes; FILL_TB, DCI2GRANT and PIPE_INIT have two rows each). -/
inductive Instr where
  /-- RATE_FROM_MCS, R144. -/
  | rateFromMcs
  /-- MOD_FROM_MCS, R145. -/
  | modFromMcs
  /-- SLOT_NRE, R149. -/
  | slotNre
  /-- TBS, R151. -/
  | tbs
  /-- FILL_TB.0, R153. -/
  | fillTb0
  /-- FILL_TB.1, R153. -/
  | fillTb1
  /-- DCI2GRANT.DL, R154. -/
  | dci2GrantDl
  /-- DCI2GRANT.UL, R155. -/
  | dci2GrantUl
  /-- PIPE_INIT.TX, R222. -/
  | pipeInitTx
  /-- PIPE_INIT.RX, R222. -/
  | pipeInitRx
  /-- PIPE_SET_CARRIER, R223. -/
  | pipeSetCarrier
  /-- PIPE_FREE, R224. -/
  | pipeFree
  /-- ENCODE, R230. -/
  | encode
  /-- DECODE, R250. -/
  | decode
  /-- SA_SET_CARRIER, R271. -/
  | saSetCarrier
  /-- SA_SET_CORESET, R272. -/
  | saSetCoreset
  /-- BASE_ZERO, R273. -/
  | baseZero
  /-- PDCCH_PUT, R274. -/
  | pdcchPut
  /-- PDSCH_PUT, R276. -/
  | pdschPut
  /-- GEN_SIGNAL, R279. -/
  | genSignal
deriving DecidableEq, Repr

/-- R100: the three fields of a command word in the one format, C. -/
structure CommandWord where
  /-- Bits 7:0, the opcode. -/
  opc : BitVec 8
  /-- Bit 8, the modifier. -/
  m : BitVec 1
  /-- Bits 31:9, reserved. -/
  zero : BitVec 23
deriving DecidableEq, Repr

end Sys2Proof
end

