-- ==== Sys2Proof/WellFormed.lean ====
section
/-! DEFINITION. Well-formedness of a command word, R102. An `Instr` has no operand field (R101), so the three checks are
those of the word. -/

namespace Sys2Proof

/-- R102, R103: the 17 opcodes of the command table. -/
def knownOpcodes : List (BitVec 8) :=
  [0x01, 0x02, 0x03, 0x04, 0x05, 0x06, 0x10, 0x11, 0x12, 0x13, 0x14, 0x20, 0x21, 0x22, 0x23, 0x24, 0x25]

/-- R101, R102: the opcodes for which the modifier M may be 1. -/
def modifiedOpcodes : List (BitVec 8) := [0x05, 0x06, 0x10]

/-- R102, first check: ZERO = 0. -/
def CommandWord.zeroOk (c : CommandWord) : Bool := c.zero == 0

/-- R102, second check: OPC is one of the 17 opcodes. -/
def CommandWord.opcodeOk (c : CommandWord) : Bool := knownOpcodes.contains c.opc

/-- R102, third check: M = 0 unless OPC is 0x05, 0x06 or 0x10. -/
def CommandWord.modifierOk (c : CommandWord) : Bool := c.m == 0 || modifiedOpcodes.contains c.opc

/-- R102: a command word is well formed. -/
def CommandWord.wellFormed (c : CommandWord) : Bool := c.zeroOk && c.opcodeOk && c.modifierOk

/-- R101, R106: a command carries no operand of its own, so every command term is well formed; the operands are checked by
the command's own rule (R126). -/
def Instr.wellFormed : Instr → Bool := fun _ => true

end Sys2Proof
end

