-- ==== Sys2Proof/Decode.lean ====
section
/-! DEFINITION. Decoding and encoding of command words (R100 to R106). -/

namespace Sys2Proof

/-- R100: the fields of a command word. -/
def fieldsOf (w : Word) : CommandWord :=
  { opc := w.extractLsb' 0 8, m := w.extractLsb' 8 1, zero := w.extractLsb' 9 23 }

/-- Why the decoder rejects a word (R102). The hardware reports all three alike, as II_CMD_RESERVED. -/
inductive DecodeError where
  /-- Bits 31:9 are not zero. -/
  | zeroField
  /-- OPC is none of the 17 opcodes of R104. -/
  | reservedOpcode
  /-- M = 1 on an opcode that has no modifier. -/
  | modifierNotZero
deriving DecidableEq, Repr

/-- R104: the row of the command table an opcode and a modifier select, by number. -/
def rowOf (opc m : Nat) : Except DecodeError Instr :=
  match opc, m with
  | 0x01, 0 => .ok .rateFromMcs
  | 0x02, 0 => .ok .modFromMcs
  | 0x03, 0 => .ok .slotNre
  | 0x04, 0 => .ok .tbs
  | 0x05, 0 => .ok .fillTb0
  | 0x05, 1 => .ok .fillTb1
  | 0x06, 0 => .ok .dci2GrantDl
  | 0x06, 1 => .ok .dci2GrantUl
  | 0x10, 0 => .ok .pipeInitTx
  | 0x10, 1 => .ok .pipeInitRx
  | 0x11, 0 => .ok .pipeSetCarrier
  | 0x12, 0 => .ok .pipeFree
  | 0x13, 0 => .ok .encode
  | 0x14, 0 => .ok .decode
  | 0x20, 0 => .ok .saSetCarrier
  | 0x21, 0 => .ok .saSetCoreset
  | 0x22, 0 => .ok .baseZero
  | 0x23, 0 => .ok .pdcchPut
  | 0x24, 0 => .ok .pdschPut
  | 0x25, 0 => .ok .genSignal
  | o, _ => if knownOpcodes.contains (BitVec.ofNat 8 o) then .error .modifierNotZero else .error .reservedOpcode

/-- R102, R104, R106: the command of a word, or the reason the word is reserved. Total; no mode changes it. -/
def decode (w : Word) : Except DecodeError Instr :=
  let f := fieldsOf w
  if f.zero = 0 then rowOf f.opc.toNat f.m.toNat else .error .zeroField

/-- R104, columns OPC and M: the fields of a command's word. -/
def encodeFields : Instr → CommandWord
  | .rateFromMcs => ⟨0x01, 0, 0⟩
  | .modFromMcs => ⟨0x02, 0, 0⟩
  | .slotNre => ⟨0x03, 0, 0⟩
  | .tbs => ⟨0x04, 0, 0⟩
  | .fillTb0 => ⟨0x05, 0, 0⟩
  | .fillTb1 => ⟨0x05, 1, 0⟩
  | .dci2GrantDl => ⟨0x06, 0, 0⟩
  | .dci2GrantUl => ⟨0x06, 1, 0⟩
  | .pipeInitTx => ⟨0x10, 0, 0⟩
  | .pipeInitRx => ⟨0x10, 1, 0⟩
  | .pipeSetCarrier => ⟨0x11, 0, 0⟩
  | .pipeFree => ⟨0x12, 0, 0⟩
  | .encode => ⟨0x13, 0, 0⟩
  | .decode => ⟨0x14, 0, 0⟩
  | .saSetCarrier => ⟨0x20, 0, 0⟩
  | .saSetCoreset => ⟨0x21, 0, 0⟩
  | .baseZero => ⟨0x22, 0, 0⟩
  | .pdcchPut => ⟨0x23, 0, 0⟩
  | .pdschPut => ⟨0x24, 0, 0⟩
  | .genSignal => ⟨0x25, 0, 0⟩

/-- R100: the word of three fields. -/
def wordOf (c : CommandWord) : Word := c.zero ++ (c.m ++ c.opc)

/-- R104, column match: the word of a command. -/
def encode (i : Instr) : Word := wordOf (encodeFields i)

/-- The command the decoder reads from a table row's bits. A command is one 32-bit register word (R100) with no byte order
(R80), so the word is the number itself; bits at or above `nbits` are zero. -/
def decodeTableWord (nbits w : Nat) : Option Instr :=
  match decode (BitVec.ofNat 32 (w % 2 ^ nbits)) with
  | .ok i => some i
  | .error _ => none

end Sys2Proof
end

