-- ==== Sys2Proof/Config.lean ====
section
/-! DEFINITION. What an implementation of NRSCH-CORE fixes (R8), the types of the OPEN number formats (R16, R74), the
phase factors PHASE (R280; the numerics record `Num` itself stands in Machine/Numerics.lean, since one of its laws speaks of
the modulation mappers) and the free values that the machine's runs meet (undefined memory
elements R61, arbitrary reads R366, collaborator answers the environment did not script R330). The OPEN parameters and
free values are opaque constants with no body: nothing can be proved about their values. -/

namespace Sys2Proof.Config

/-! ## Fixed parameters (R8) -/

/-- R8: the largest carrier the buffers can ever hold, in resource blocks. -/
def hwMaxPrb : Nat := 275
/-- R8: antenna ports, that is per-antenna slot buffers. -/
def hwMaxPorts : Nat := 4
/-- R8: the most layers of a PIPE. -/
def hwMaxLayers : Nat := 4
/-- R8: the most codewords of a PIPE. -/
def hwMaxCw : Nat := 2
/-- R62: MAX_TBS_BITS, the capacity of PAYLOAD[c] and RXPAYLOAD[c] in bits. -/
def maxTbsBits : Nat := 2097152

/-! ## Sample, soft bit, phase and channel-estimate elements (R16, R70, R74)

The spec fixes no number format. A value of each kind is therefore named by an abstract code: whatever finite format an
implementation has, its values can be numbered. DESIGN CHOICE, safe (log 2): the codes may be more than the values of
the format. -/

/-- R16: a complex sample in the implementation's own format. -/
structure Sample where
  /-- The number of the value among the format's values. -/
  code : Nat
deriving DecidableEq, Repr, Inhabited

/-- R16: a log-likelihood ratio in the implementation's own format. -/
structure Llr where
  /-- The number of the value among the format's values. -/
  code : Nat
deriving DecidableEq, Repr, Inhabited

/-- R8, R280: a per-symbol phase factor. -/
structure Phase where
  /-- The number of the value among the format's values. -/
  code : Nat
deriving DecidableEq, Repr, Inhabited

/-- R74: one element of the channel estimate CE, opaque to the block. -/
structure CeElem where
  /-- The number of the value among the collaborator's values. -/
  code : Nat
deriving DecidableEq, Repr, Inhabited

/-- R8, R280, D30: PHASE[l], 0 ≤ l < 14, OPEN (log 3). -/
opaque phase : Nat → Phase

/-! ## Free values of commands (applied to the draw counter of State) -/

/-- R61, U1: the arbitrary Sample an undefined SLOTBUF or RXBUF element yields to a command; a fresh one at each draw
(log 4). -/
opaque freeSample : Nat → Sample
/-- R62, U10: the arbitrary bit an undefined PAYLOAD element yields to ENCODE (log 4). -/
opaque freeBit : Nat → Bool

/-! ## Free values of the host's reads (applied to the port's own draw counter, so that no read disturbs a command) -/

/-- R61, R366: the arbitrary Sample a host read of an undefined element, or a refused read, returns (logs 4, 5). -/
opaque freeReadSample : Nat → Sample
/-- R62, U10: the arbitrary bit an undefined PAYLOAD or RXPAYLOAD element yields to a host read (log 4). -/
opaque freeReadBit : Nat → Bool
/-- R63, R366: the arbitrary CE element a host read of an undefined element, or a refused read, returns (logs 4, 5). -/
opaque freeReadCe : Nat → CeElem
/-- R366: the arbitrary word a refused register read or bit-array read returns (log 5). -/
opaque freeReadWord : Nat → Word

/-! ## Collaborator answers that the environment's script does not hold (R330; log 6) -/

/-- R331: an answer of `Fec.encode`; none is a reported failure. -/
opaque freeFecEncode : Nat → Option (List Bool)
/-- R331: an answer of `Fec.decode`. -/
opaque freeFecDecode : Nat → Option (List Bool × Bool)
/-- R334: an answer of `Seq.gen`. -/
opaque freeSeqGen : Nat → Option (List Bool)
/-- R332: an answer of `Chest.equalize`. -/
opaque freeEqualize : Nat → Option (List (List Sample))
/-- R335: an answer of `Dmrs.vals`. -/
opaque freeDmrsVals : Nat → Option (List Sample)
/-- R335: an answer of `Pdcch.dmrs`. -/
opaque freePdcchDmrs : Nat → Option (List (Nat × Nat × Sample))
/-- R335: an answer of `Pdcch.encode`. -/
opaque freePdcchEncode : Nat → Option (List (Nat × Nat × Sample))
/-- R333: an answer of `Ofdm.transform` (true: ok). -/
opaque freeTransform : Nat → Bool

end Sys2Proof.Config
end

