-- ==== Sys2Proof/Machine/Bits.lean ====
section
/-! DEFINITION. Integer and bit-field helpers (R11, R12, R72). -/

namespace Sys2Proof.Machine

/-- R12: `cdiv(a, b) = (a + b − 1) div b`. -/
def cdiv (a b : Nat) : Nat := (a + b - 1) / b

/-- R12: `ilog2(x)` for x ≥ 1 is the largest e with 2^e ≤ x. -/
def ilog2 (x : Nat) : Nat := Nat.log2 x

/-- R11: the indices of the 1 bits of a field, ascending. -/
def setBits {n : Nat} (v : BitVec n) : List Nat := (List.range n).filter fun i => v.getLsbD i

/-- R11: the number of 1 bits. -/
def popcount {n : Nat} (v : BitVec n) : Nat := (setBits v).length

/-- The field of width n whose bit i is `f i`. -/
def bitsOf : (n : Nat) → (Nat → Bool) → BitVec n
  | 0, _ => 0#0
  | n + 1, f => BitVec.cons (f n) (bitsOf n f)

/-- A one-bit field as a number. -/
def bit01 (b : Bool) : Nat := if b then 1 else 0

/-- R12, R13: the value a rule stores into a register field of width n; every rule's value fits. -/
def fieldOf (n v : Nat) : BitVec n := BitVec.ofNat n v

/-- Element i of a table of registers, by its index; a table read outside its rows is made by no rule. -/
def rowAt {n k : Nat} (t : Vector (BitVec k) n) (i : Nat) : BitVec k := t[i]?.getD 0

/-- R72: bit i of the stream packed in 32-bit words, first bit least significant in word 0. -/
def streamBit {n : Nat} (words : Vector Word n) (i : Nat) : Bool := (rowAt words (i / 32)).getLsbD (i % 32)

end Sys2Proof.Machine
end

