-- ==== Sys2Proof/Machine/Tables.lean ====
section
/-! DEFINITION. The tables and fixed functions of the Resource Allocation Engine (file 41 of the spec, R190 to R210). The
spec offers each table as a configuration default; they stand here as plain data. UNVERIFIED, unsafe (log 13): the spec
itself supplies their contents from general knowledge. -/

namespace Sys2Proof.Machine

/-! ## MCS index tables (R190 to R194) -/

/-- R190: the three MCS index tables. -/
inductive McsTable where
  /-- T1, R191. -/
  | t1
  /-- T2, R192. -/
  | t2
  /-- T3, R193. -/
  | t3
deriving DecidableEq, Repr

/-- R191: table T1, rows 0 to 28 as (Qm, R2048). -/
def mcsRows1 : List (Nat × Nat) :=
  [(2, 240), (2, 314), (2, 386), (2, 502), (2, 616), (2, 758), (2, 898), (2, 1052), (2, 1204), (2, 1358)] ++
  [(4, 680), (4, 756), (4, 868), (4, 980), (4, 1106), (4, 1232), (4, 1316)] ++
  [(6, 876), (6, 932), (6, 1034), (6, 1134), (6, 1232), (6, 1332), (6, 1438), (6, 1544), (6, 1644), (6, 1746), (6, 1820),
   (6, 1896)]

/-- R192: table T2, rows 0 to 27. -/
def mcsRows2 : List (Nat × Nat) :=
  [(2, 240), (2, 386), (2, 616), (2, 898), (2, 1204)] ++
  [(4, 756), (4, 868), (4, 980), (4, 1106), (4, 1232), (4, 1316)] ++
  [(6, 932), (6, 1034), (6, 1134), (6, 1232), (6, 1332), (6, 1438), (6, 1544), (6, 1644), (6, 1746)] ++
  [(8, 1365), (8, 1422), (8, 1508), (8, 1594), (8, 1682), (8, 1770), (8, 1833), (8, 1896)]

/-- R193: table T3, rows 0 to 28. -/
def mcsRows3 : List (Nat × Nat) :=
  [(2, 60), (2, 80), (2, 100), (2, 128), (2, 156), (2, 198), (2, 240), (2, 314), (2, 386), (2, 502), (2, 616), (2, 758),
   (2, 898), (2, 1052), (2, 1204)] ++
  [(4, 680), (4, 756), (4, 868), (4, 980), (4, 1106), (4, 1232)] ++
  [(6, 876), (6, 932), (6, 1034), (6, 1134), (6, 1232), (6, 1332), (6, 1438), (6, 1544)]

/-- R190 to R193: the rows of a table; an index at or beyond the length is outside the table. -/
def mcsRows : McsTable → List (Nat × Nat)
  | .t1 => mcsRows1
  | .t2 => mcsRows2
  | .t3 => mcsRows3

/-- R194: `TableEntry(T, mcs)`, (Qm, R2048) inside T's range and none outside it. -/
def tableEntry (t : McsTable) (mcs : Nat) : Option (Nat × Nat) := (mcsRows t)[mcs]?

/-! ## Table selection (R196) -/

/-- R112, R196: C-RNTI, CS-RNTI or SP-CSI-RNTI. -/
def rntiSelectsTables (rnti : Nat) : Bool := rnti == 0 || rnti == 5 || rnti == 6

/-- R196: `SelectTable(tbl, fmt, ss, rnti)`; none exactly when one of the four codes is reserved. -/
def selectTable (tbl fmt ss rnti : Nat) : Option McsTable :=
  if tbl = 3 ∨ 4 ≤ fmt ∨ 2 ≤ ss ∨ 8 ≤ rnti then none
  else if tbl = 1 ∧ (fmt = 1 ∨ fmt = 3) ∧ rntiSelectsTables rnti then some .t2
  else if tbl = 2 ∧ ss = 1 ∧ rntiSelectsTables rnti then some .t3
  else if rnti = 7 then some .t3
  else some .t1

/-- R143: `McsLookup(tbl, fmt, ss, rnti, mcs)`. -/
def mcsLookup (tbl : BitVec 2) (fmt : BitVec 3) (ss : BitVec 2) (rnti : BitVec 4) (mcs : BitVec 5) : Option (Nat × Nat) :=
  match selectTable tbl.toNat fmt.toNat ss.toNat rnti.toNat with
  | none => none
  | some t => tableEntry t mcs.toNat

/-! ## TBS quantisation table (R197, R198) -/

/-- R197: the 93 entries, ascending. -/
def quantEntries : List Nat :=
  [24, 32, 40, 48, 56, 64, 72, 80, 88, 96] ++
  [104, 112, 120, 128, 136, 144, 152, 160, 168, 176] ++
  [184, 192, 208, 224, 240, 256, 272, 288, 304, 320] ++
  [336, 352, 368, 384, 408, 432, 456, 480, 504, 528] ++
  [552, 576, 608, 640, 672, 704, 736, 768, 808, 848] ++
  [888, 928, 984, 1032, 1064, 1128, 1160, 1192, 1224, 1256] ++
  [1288, 1320, 1352, 1416, 1480, 1544, 1608, 1672, 1736, 1800] ++
  [1864, 1928, 2024, 2088, 2152, 2216, 2280, 2408, 2472, 2536] ++
  [2600, 2664, 2728, 2792, 2856, 2976, 3104, 3240, 3368, 3496] ++
  [3624, 3752, 3824]

/-- R198: `QuantTable(v)`, the smallest entry not less than v, for 24 ≤ v ≤ 3824 (its only arguments, R150). -/
def quantTable (v : Nat) : Nat := (quantEntries.find? fun e => decide (v ≤ e)).getD 0

/-! ## Frequency-domain allocation value (R204, R205) -/

/-- R204: `RivDecode(N, riv)`, (start, len). -/
def rivDecode (n riv : Nat) : Option (Nat × Nat) :=
  if n * (n + 1) / 2 ≤ riv then none
  else
    let a := riv / n
    let b := riv % n
    let sl := if a + b < n then (b, a + 1) else (n - 1 - b, n - a + 1)
    if sl.2 < 1 ∨ n < sl.1 + sl.2 then none else some sl

/-- R205: `RIV(N, start, len)`, for 1 ≤ len ≤ N − start. -/
def rivEncode (n start len : Nat) : Nat :=
  if len - 1 ≤ n / 2 then n * (len - 1) + start else n * (n - len + 1) + (n - 1 - start)

/-! ## DMRS subcarrier sets (R208 to R210); the type is false for configuration type 1, true for type 2 -/

/-- R208: `GroupSC(type, g)`, ascending. -/
def groupSc (ty : Bool) (g : Nat) : List Nat :=
  match ty, g with
  | false, 0 => [0, 2, 4, 6, 8, 10]
  | false, 1 => [1, 3, 5, 7, 9, 11]
  | true, 0 => [0, 1, 6, 7]
  | true, 1 => [2, 3, 8, 9]
  | true, 2 => [4, 5, 10, 11]
  | _, _ => []

/-- R209: `PortGroup(type, p)`. Ports 8 to 11 do not exist for type 1; every rule excludes them before it asks. -/
def portGroup (ty : Bool) (p : Nat) : Nat :=
  (if ty then [0, 0, 1, 1, 2, 2, 0, 0, 1, 1, 2, 2] else [0, 0, 1, 1, 0, 0, 1, 1]).getD p 0

/-- R210: sc is in `DmrsResv(type, ncg)`, the union of GroupSC(type, g) for g < ncg. -/
def dmrsResv (ty : Bool) (ncg sc : Nat) : Bool := (List.range ncg).any fun g => (groupSc ty g).contains sc

/-- R159, R225 line 13: a port is illegal for the DMRS type or its group is not below the CDM-group count. -/
def portIllegal (ty : Bool) (ncg p : Nat) : Bool := (!ty && decide (8 ≤ p)) || decide (ncg ≤ portGroup ty p)

/-! ## Transport-block size (R150) -/

/-- R150, first branch: N_info = P/D ≤ 3824. -/
def tbsSmall (p d : Nat) : Nat :=
  let q := p / d
  let n := if q = 0 then 3 else max 3 (ilog2 q - 6)
  quantTable (max 24 (2 ^ n * (p / (d * 2 ^ n))))

/-- R150, second branch: N_info = P/D > 3824. -/
def tbsLarge (p d r : Nat) : Nat :=
  let a := p - 24 * d
  let n := ilog2 (a / d) - 5
  let rn := (2 * a + d * 2 ^ n) / (2 * d * 2 ^ n)
  let v := max 3840 (2 ^ n * rn)
  let c := if r ≤ 512 then cdiv (v + 24) 3816 else if 8424 < v then cdiv (v + 24) 8424 else 1
  8 * c * cdiv (v + 24) (8 * c) - 24

/-- R150: `Tbs(nre, sden, r, qm, nu)`; none when N_info = 0. -/
def tbsOf (nre sden r qm nu : Nat) : Option Nat :=
  let p := nre * r * qm * nu
  let d := 2048 * sden
  if p = 0 then none
  else if p ≤ 3824 * d then some (tbsSmall p d)
  else some (tbsLarge p d r)

/-- R117: `Sden(code)`: 1, 1, 2, 4 for codes 0, 1, 2, 3. -/
def scalingDen (code : BitVec 2) : Nat :=
  match code.toNat with
  | 2 => 2
  | 3 => 4
  | _ => 1

/-! ## Modulation mappers (R236 to R240) -/

/-- 1 − 2·b. -/
def sgn (b : Bool) : Int := if b then -1 else 1

/-- R236 to R239: the grid point (I, Q) of a group of Qm bits, b 0 the earliest of the stream. Other orders are refused
before any rule asks (R229, D47). -/
def gridPoint (qm : Nat) (b : Nat → Bool) : Int × Int :=
  match qm with
  | 2 => (sgn (b 0), sgn (b 1))
  | 4 => (sgn (b 0) * (2 - sgn (b 2)), sgn (b 1) * (2 - sgn (b 3)))
  | 6 => (sgn (b 0) * (4 - sgn (b 2) * (2 - sgn (b 4))), sgn (b 1) * (4 - sgn (b 3) * (2 - sgn (b 5))))
  | 8 => (sgn (b 0) * (8 - sgn (b 2) * (4 - sgn (b 4) * (2 - sgn (b 6)))),
          sgn (b 1) * (8 - sgn (b 3) * (4 - sgn (b 5) * (2 - sgn (b 7)))))
  | _ => (0, 0)

end Sys2Proof.Machine
end

