-- ==== Sys2Proof/Machine/Numerics.lean ====
section
/-! DEFINITION. The numerics record `Num` of R16 with the two laws the spec imposes on it, and the instance's own record,
which is OPEN: an opaque constant of which nothing but the two laws is known (log 3). -/

namespace Sys2Proof.Config

open Sys2Proof.Machine

/-- R16: the numerics record `Num`. `softdemod qm s j` is the j-th of the Qm soft bits of `s` (0 ≤ j < Qm). `magnitudeSq` and
`hard` name what the two laws speak of: the squared magnitude of a sample (rational for every number format and every exact
grid point) and the hard decision of a soft bit. Quantisation, the scale and sign convention of an Llr and the formula of
`evm` are left open. `mul zero p = zero` is NOT a law (R16). -/
structure Numerics where
  /-- `Num.zero`. -/
  zero : Sample
  /-- `Num.point(Qm, I, Q)`: the exact value (I + jQ)·K(Qm) in the sample format. -/
  point : Nat → Int → Int → Sample
  /-- `Num.mul(Sample, Phase)`. -/
  mul : Sample → Phase → Sample
  /-- `Num.neg`. -/
  neg : Llr → Llr
  /-- `Num.softdemod(Qm, Sample)`, by the index of the soft bit. -/
  softdemod : Nat → Sample → Nat → Llr
  /-- `Num.evm(Qm, list of Sample)` in its register encoding. -/
  evm : Nat → List Sample → Word
  /-- The squared magnitude of a sample. -/
  magnitudeSq : Sample → Rat
  /-- The hard decision of a soft bit. -/
  hard : Llr → Bool
  /-- R16, the zeroing law: zero is "exactly zero magnitude". -/
  zero_magnitude : magnitudeSq zero = 0
  /-- R16, R253, the hard-decision law: for a grid point, the hard decisions of its soft bits are the Qm bits that R236 to
  R239 map to it. -/
  hard_decision : ∀ qm : Nat, qm = 2 ∨ qm = 4 ∨ qm = 6 ∨ qm = 8 → ∀ bits : Nat → Bool, ∀ j < qm,
    hard (softdemod qm (point qm (gridPoint qm bits).1 (gridPoint qm bits).2) j) = bits j

/-! ## The laws can be met

A record with exact samples, used in the proof that a lawful record exists and in tests; the machine does not use it. -/

/-- The exact sample (I, Q): its code numbers the pair. -/
def exactSample (i q : Int) : Sample := ⟨Encodable.encode (i, q)⟩

/-- The pair an exact sample stands for. -/
def exactPair (x : Sample) : Int × Int := (Encodable.decode (α := Int × Int) x.code).getD (0, 0)

@[simp] theorem exactPair_exactSample (i q : Int) : exactPair (exactSample i q) = (i, q) := by
  simp only [exactPair, exactSample, Encodable.encodek, Option.getD_some]

/-- The k-th bit of one coordinate of the mappers of R236 to R239, for coordinates below 2^n: the sign, then whether the
distance from the midpoint of what is left is positive. -/
def axisBit (n : Nat) : Nat → Int → Bool
  | 0, x => decide (x < 0)
  | k + 1, x => axisBit (n - 1) k (2 ^ (n - 1) - x.natAbs)

theorem axisBit_two : ∀ a : Bool, axisBit 1 0 (sgn a) = a := by decide

theorem axisBit_four : ∀ a b : Bool, axisBit 2 0 (sgn a * (2 - sgn b)) = a ∧ axisBit 2 1 (sgn a * (2 - sgn b)) = b := by
  decide

theorem axisBit_six : ∀ a b c : Bool,
    axisBit 3 0 (sgn a * (4 - sgn b * (2 - sgn c))) = a ∧ axisBit 3 1 (sgn a * (4 - sgn b * (2 - sgn c))) = b ∧
      axisBit 3 2 (sgn a * (4 - sgn b * (2 - sgn c))) = c := by decide

theorem axisBit_eight : ∀ a b c d : Bool,
    axisBit 4 0 (sgn a * (8 - sgn b * (4 - sgn c * (2 - sgn d)))) = a ∧
      axisBit 4 1 (sgn a * (8 - sgn b * (4 - sgn c * (2 - sgn d)))) = b ∧
      axisBit 4 2 (sgn a * (8 - sgn b * (4 - sgn c * (2 - sgn d)))) = c ∧
      axisBit 4 3 (sgn a * (8 - sgn b * (4 - sgn c * (2 - sgn d)))) = d := by decide

/-- The record of exact samples: hard-decision soft bits 0 and 1. -/
def exactNumerics : Numerics where
  zero := exactSample 0 0
  point := fun _ i q => exactSample i q
  mul := fun x _ => x
  neg := fun x => ⟨1 - x.code % 2⟩
  softdemod := fun qm x j =>
    ⟨(axisBit (qm / 2) (j / 2) (if j % 2 = 0 then (exactPair x).1 else (exactPair x).2)).toNat⟩
  evm := fun _ _ => 0
  magnitudeSq := fun x => ((exactPair x).1 ^ 2 + (exactPair x).2 ^ 2 : Int)
  hard := fun x => x.code % 2 == 1
  zero_magnitude := by simp
  hard_decision := by
    have bit : ∀ b : Bool, (b.toNat % 2 == 1) = b := by decide
    intro qm hqm bits j hj
    simp only [exactPair_exactSample, bit]
    rcases hqm with rfl | rfl | rfl | rfl <;> interval_cases j <;>
      simp only [gridPoint, reduceIte, Nat.reduceMod, Nat.reduceDiv, one_ne_zero, axisBit_two, axisBit_four, axisBit_six,
        axisBit_eight]

/-- Some lawful record, unknown; the argument shows only that lawful records exist. No body: nothing can be proved of the
answer but the two laws that every record has. -/
opaque someNumerics [Inhabited Numerics] : Numerics

/-- R16, D11: the numerics of this instance, OPEN: any record with the two laws of R16 (DESIGN CHOICE, safe, log 3). -/
def num : Numerics := @someNumerics ⟨exactNumerics⟩

end Sys2Proof.Config
end

