-- ==== Sys2Proof/Machine/State.lean ====
section
/-! DEFINITION. The state of one NRSCH-CORE instance (R20), its value after reset (R68, R350, R351), and the reasons a step
can stop. Register fields have exactly the width of the spec's tables: bits of a register outside its fields read as 0 and
ignore writes (R21), so nothing else needs holding. -/

namespace Sys2Proof.Machine

open Sys2Proof.Config

/-- One memory space (R70), sparse: the defined elements as (element address, value) pairs, addresses strictly rising. An
address not listed is an undefined element (R61 to R63, R351). Spaces are addressed by element, not by byte (R70, R80; log 12). -/
abbrev Mem (α : Type) := List (Nat × α)

/-! ## System registers (R22 to R24) -/

/-- R22 to R24: CMD, STATUS, ERRINFO, CMDCNT. -/
structure SystemRegs where
  /-- CMD, 0x000: the last command word accepted. -/
  cmd : Word
  /-- STATUS bit 0. -/
  busy : Bool
  /-- STATUS bit 1. -/
  done : Bool
  /-- STATUS bit 2. -/
  err : Bool
  /-- STATUS bit 3, sticky. -/
  haz : Bool
  /-- STATUS bits 6:4, ERR_CLASS. -/
  errClass : BitVec 3
  /-- STATUS bits 15:8, LAST_OP. -/
  lastOp : BitVec 8
  /-- ERRINFO bits 7:0, ERR_CODE. -/
  errCode : BitVec 8
  /-- ERRINFO bits 11:8, ERR_STEP. -/
  errStep : BitVec 4
  /-- CMDCNT, 0x003. -/
  cmdcnt : Word
deriving DecidableEq, Repr

/-! ## Argument and configuration registers: written by the host only (R26, R27, R30 to R39, R45, R46) -/

/-- A carrier (R26): the CAR_* argument registers, and the latched copies PIPE_CAR and SA_CAR (R28, R29, R66). -/
structure Carrier where
  /-- Resource blocks. -/
  nprb : BitVec 9
  /-- Numerology. -/
  mu : BitVec 3
  /-- Cyclic prefix: false normal, true extended. -/
  cp : Bool
  /-- Antenna ports. -/
  nports : BitVec 3
deriving DecidableEq, Repr

/-- R27: the PIPE init argument registers. -/
structure PipeArgs where
  /-- PA_MAX_PRB. -/
  maxPrb : BitVec 9
  /-- PA_MAX_LAYERS. -/
  maxLayers : BitVec 3
  /-- PA_MAX_CW. -/
  maxCw : BitVec 2
  /-- PA_MEASURE_EVM. -/
  measureEvm : Bool
deriving DecidableEq, Repr

/-- A CORESET: the CS_* argument registers (R30) and the SA's latched copy (R66). -/
structure Coreset where
  /-- CS_FREQ_LO: bits 31..0 of the frequency bitmap. -/
  freqLo : Word
  /-- CS_FREQ_HI: bits 44..32 of the frequency bitmap. -/
  freqHi : BitVec 13
  /-- CS_DUR. -/
  dur : BitVec 2
  /-- CS_ID. -/
  id : BitVec 4
  /-- CS_OPAQUE. -/
  opaqueWord : Word
deriving DecidableEq, Repr

/-- R31 to R36: one bank of HL configuration. Table rows are held packed as R119 to R122. -/
structure HlBank where
  /-- HL_MCS_TABLE. -/
  mcsTable : BitVec 2
  /-- HL_ALLOC_TYPE. -/
  allocType : BitVec 2
  /-- HL_SS_ASSOC. -/
  ssAssoc : BitVec 16
  /-- HL_TDRA[i], format R119. -/
  tdra : Vector (BitVec 10) 16
  /-- HL_APT[i], format R120. -/
  apt : Vector (BitVec 15) 32
  /-- HL_DMRS[i], format R121. -/
  dmrs : Vector (BitVec 16) 4
  /-- HL_RSV[l], format R122. -/
  rsv : Vector (BitVec 12) 14
deriving DecidableEq, Repr

/-- R38: the DCI argument registers. -/
structure DciArgs where
  /-- DCI_FORMAT. -/
  format : BitVec 3
  /-- DCI_SS_TYPE. -/
  ssType : BitVec 2
  /-- DCI_RNTI_TYPE. -/
  rntiType : BitVec 4
  /-- DCI_FDA: a RIV. -/
  fda : BitVec 16
  /-- DCI_TDA: row of HL_TDRA. -/
  tda : BitVec 4
  /-- DCI_MCS. -/
  mcs : BitVec 5
  /-- DCI_RV. -/
  rv : BitVec 2
  /-- DCI_PORTS: row of HL_APT. -/
  ports : BitVec 5
  /-- DCI_DMRS_PTR: row of HL_DMRS. -/
  dmrsPtr : BitVec 2
deriving DecidableEq, Repr

/-- R39: the lookup and TBS operand registers. -/
structure OpArgs where
  /-- OP_TABLE. -/
  table : BitVec 2
  /-- OP_FORMAT. -/
  format : BitVec 3
  /-- OP_SS_TYPE. -/
  ssType : BitVec 2
  /-- OP_RNTI_TYPE. -/
  rntiType : BitVec 4
  /-- OP_MCS. -/
  mcs : BitVec 5
  /-- OP_NRE. -/
  nre : BitVec 20
  /-- OP_SC. -/
  sc : BitVec 2
  /-- OP_R. -/
  r : BitVec 12
  /-- OP_QM. -/
  qm : BitVec 4
  /-- OP_NLAYERS. -/
  nlayers : BitVec 3
deriving DecidableEq, Repr

/-- R45: per-call arguments of ENCODE, DECODE, PDSCH_PUT. -/
structure EnArgs where
  /-- EN_CELL_ID. -/
  cellId : BitVec 10
  /-- EN_RNTI. -/
  rnti : BitVec 16
  /-- EN_SLOT. -/
  slot : BitVec 8
  /-- EN_PRECODE. -/
  precode : Bool
  /-- PAY_LEN0. -/
  payLen0 : Word
  /-- PAY_LEN1. -/
  payLen1 : Word
  /-- EN_TCTX. -/
  tctx : Word
deriving DecidableEq, Repr

/-- R46: the PDCCH_PUT arguments. -/
structure PdArgs where
  /-- PD_AGGR. -/
  aggr : BitVec 5
  /-- PD_NCCE. -/
  ncce : BitVec 8
  /-- PD_MSG_LEN. -/
  msgLen : BitVec 8
  /-- PD_MSG[w], packed as R72. -/
  msg : Vector Word 4
deriving DecidableEq, Repr

/-- R20 (b), (c): the registers that only the host writes; no command writes any of them (R31, R37). -/
structure ArgRegs where
  /-- CAR_*, R26. -/
  car : Carrier
  /-- PA_*, R27. -/
  pa : PipeArgs
  /-- CS_*, R30. -/
  cs : Coreset
  /-- HL bank 0, downlink. -/
  hl0 : HlBank
  /-- HL bank 1, uplink. -/
  hl1 : HlBank
  /-- DCI_*, R38. -/
  dci : DciArgs
  /-- OP_*, R39. -/
  op : OpArgs
  /-- EN_*, PAY_LEN*, R45. -/
  en : EnArgs
  /-- PD_*, R46. -/
  pd : PdArgs
deriving DecidableEq, Repr

/-! ## Records that commands produce and later commands consume; also written by the host (R40 to R43) -/

/-- R40, R41: the Grant registers and the resource-block bitmap. -/
structure GrantRegs where
  /-- GR_VALID. -/
  valid : Bool
  /-- GR_DIR: false downlink, true uplink. -/
  dir : Bool
  /-- GR_FORMAT. -/
  format : BitVec 3
  /-- GR_SS_TYPE. -/
  ssType : BitVec 2
  /-- GR_RNTI_TYPE. -/
  rntiType : BitVec 4
  /-- GR_RB_START, informational. -/
  rbStart : BitVec 9
  /-- GR_RB_LEN, informational. -/
  rbLen : BitVec 9
  /-- GR_MAP_TYPE: false type A, true type B. R40, D38: passed to collaborators, used by no computation
  (log 17 says to which). -/
  mapType : Bool
  /-- GR_S, first symbol. -/
  symS : BitVec 4
  /-- GR_L, number of symbols. -/
  symL : BitVec 4
  /-- GR_NLAYERS. -/
  nlayers : BitVec 3
  /-- GR_NCG. -/
  ncg : BitVec 2
  /-- GR_PORTS. -/
  ports : BitVec 12
  /-- GR_DMRS_PTR. -/
  dmrsPtr : BitVec 2
  /-- GR_NRE. -/
  nre : BitVec 20
  /-- GR_NRE_AVAIL. -/
  nreAvail : BitVec 20
  /-- GR_PRB_MASK[w], R41. -/
  prbMask : Vector Word 9
deriving DecidableEq, Repr

/-- R42: one transport-block descriptor TB[c]. -/
structure TbRegs where
  /-- TB_EN. -/
  en : Bool
  /-- TB_MCS. -/
  mcs : BitVec 5
  /-- TB_QM. -/
  qm : BitVec 4
  /-- TB_R. -/
  r : BitVec 12
  /-- TB_TBS. -/
  tbs : Word
  /-- TB_RV. -/
  rv : BitVec 2
  /-- TB_NBITS. -/
  nbits : Word
deriving DecidableEq, Repr

/-- R43: the effective configuration registers. -/
structure CfgRegs where
  /-- CFG_VALID. -/
  valid : Bool
  /-- CFG_MCS_TABLE. -/
  mcsTable : BitVec 2
  /-- CFG_DMRS_TYPE: false type 1, true type 2. -/
  dmrsType : Bool
  /-- CFG_DMRS_SYM. -/
  dmrsSym : BitVec 14
  /-- CFG_RSV[l]. -/
  rsv : Vector (BitVec 12) 14
deriving DecidableEq, Repr

/-- R20 (d): Grant, transport-block descriptors, effective configuration. -/
structure Records where
  /-- GR_*. -/
  gr : GrantRegs
  /-- TB[0]. -/
  tb0 : TbRegs
  /-- TB[1]. -/
  tb1 : TbRegs
  /-- CFG_*. -/
  cfg : CfgRegs
deriving DecidableEq, Repr

/-! ## Result registers (R44, R49) -/

/-- R44: the result registers of the RAE. -/
structure ResRegs where
  /-- RES_NRE_AVAIL. -/
  nreAvail : BitVec 20
  /-- RES_RATE bit 31, INVALID. -/
  rateInvalid : Bool
  /-- RES_RATE bits 11:0, R2048. -/
  rate : BitVec 12
  /-- RES_MOD. -/
  qm : BitVec 4
  /-- RES_NRE. -/
  nre : BitVec 20
  /-- RES_TBS. -/
  tbs : Word
deriving DecidableEq, Repr

/-- R49: the decode result of one codeword. -/
structure RxCw where
  /-- RX_CRC[c] bit 0, OK. -/
  ok : Bool
  /-- RX_CRC[c] bit 1, VALID. -/
  valid : Bool
  /-- RX_EVM[c]. -/
  evm : Word
  /-- RX_LEN[c]. -/
  len : Word
deriving DecidableEq, Repr

/-- R49: the decode result registers. -/
structure RxRegs where
  /-- Codeword 0. -/
  cw0 : RxCw
  /-- Codeword 1. -/
  cw1 : RxCw
  /-- RX_EVM_VALID. -/
  evmValid : Bool
  /-- RX_TCTX. -/
  tctx : Word
deriving DecidableEq, Repr

/-! ## Unit state: readable, not writable (R28, R29, R66) -/

/-- R28: PIPE_STATE. -/
inductive PipeState where
  /-- 0 UNINIT. -/
  | uninit
  /-- 1 PARTIAL: an init failed midway. -/
  | partialInit
  /-- 2 READY: initialised, no carrier. -/
  | ready
  /-- 3 CARRIER_SET. -/
  | carrierSet
deriving DecidableEq, Repr

/-- R116: PIPE_ROLE. -/
inductive Role where
  /-- 0. -/
  | transmitter
  /-- 1. -/
  | receiver
deriving DecidableEq, Repr

/-- R28: the PIPE state registers. -/
structure PipeRegs where
  /-- PIPE_STATE. -/
  state : PipeState
  /-- PIPE_ROLE. -/
  role : Role
  /-- PIPE_CAP_PRB. -/
  capPrb : BitVec 9
  /-- PIPE_CAP_LAYERS. -/
  capLayers : BitVec 3
  /-- PIPE_CAP_CW. -/
  capCw : BitVec 2
  /-- PIPE_EVM_EN. -/
  evmEn : Bool
  /-- PIPE_CAR, the latched carrier. -/
  car : Carrier
deriving DecidableEq, Repr

/-- R29: SA_STATE. -/
inductive SaState where
  /-- 0 NO_CARRIER. -/
  | noCarrier
  /-- 1 CARRIER_SET. -/
  | carrierSet
deriving DecidableEq, Repr

/-- R29, R66: the SA state registers and the hidden latched CORESET. -/
structure SaRegs where
  /-- SA_STATE. -/
  state : SaState
  /-- SA_CAP_PRB. -/
  capPrb : BitVec 9
  /-- SA_CAP_PORTS. -/
  capPorts : BitVec 3
  /-- SA_CAR, the latched carrier. -/
  car : Carrier
  /-- SA_CS_VALID. -/
  csValid : Bool
  /-- The latched CORESET, hidden (R66). -/
  coreset : Coreset
deriving DecidableEq, Repr

/-! ## Memories (R60 to R63, R70) -/

/-- R60: the memory spaces. -/
structure Memories where
  /-- SLOTBUF[a], a = 0..3. -/
  slotbuf : Vector (Mem Sample) 4
  /-- PAYLOAD[c], c = 0, 1, by bit. -/
  payload : Vector (Mem Bool) 2
  /-- RXBUF[a], a = 0..3. -/
  rxbuf : Vector (Mem Sample) 4
  /-- CE, opaque elements, any element address (R70 leaves the number unspecified; DESIGN CHOICE, safe, log 15). -/
  ce : Mem CeElem
  /-- RXPAYLOAD[c], c = 0, 1, by bit. -/
  rxpayload : Vector (Mem Bool) 2
deriving DecidableEq, Repr

/-! ## The environment: what the host does, what collaborators answer, what was called (R15, R67, R330) -/

/-- R70: a space of Samples on the host's bulk port. -/
inductive SampleSpace where
  /-- SLOTBUF[a]. -/
  | slotbuf (a : Fin 4)
  /-- RXBUF[a]. -/
  | rxbuf (a : Fin 4)
deriving DecidableEq, Repr

/-- R70, R72: a bit array on the host's bulk port, moved by 32-bit words. -/
inductive BitSpace where
  /-- PAYLOAD[c]. -/
  | payload (c : Fin 2)
  /-- RXPAYLOAD[c]. -/
  | rxpayload (c : Fin 2)
deriving DecidableEq, Repr

/-- R21, R75, R130: one access of the host, on the register port (addresses 0x000 to 0x1FF) or the bulk port. -/
inductive HostAccess where
  /-- `RD`: RegRead(a). -/
  | regRead (a : BitVec 9)
  /-- `WR`: RegWrite(a, v); a write to CMD issues a command. -/
  | regWrite (a : BitVec 9) (v : Word)
  /-- `MR`: HostRead of one Sample. -/
  | readSample (sp : SampleSpace) (addr : Nat)
  /-- `MW`: HostWrite of one Sample. -/
  | writeSample (sp : SampleSpace) (addr : Nat) (v : Sample)
  /-- `MR`: HostRead of one word of a bit array. -/
  | readBits (sp : BitSpace) (addr : Nat)
  /-- `MW`: HostWrite of one word of a bit array. -/
  | writeBits (sp : BitSpace) (addr : Nat) (v : Word)
  /-- `MR`: HostRead of one CE element. -/
  | readCe (addr : Nat)
  /-- `MW`: HostWrite of one CE element. -/
  | writeCe (addr : Nat) (v : CeElem)
deriving DecidableEq, Repr

/-- R15: who moves in one step. The platform may also assert reset at any time (R350). -/
inductive Turn where
  /-- The host makes one access. -/
  | host (a : HostAccess)
  /-- The command executor completes the command in flight, if one is. -/
  | executor
  /-- Reset is asserted. -/
  | reset
deriving DecidableEq, Repr

/-- What the host last received from a read. -/
inductive ReadData where
  /-- A register, or a word of a bit array. -/
  | word (v : Word)
  /-- A Sample. -/
  | sample (v : Sample)
  /-- A CE element. -/
  | ce (v : CeElem)
deriving DecidableEq, Repr

/-- R330: answers the environment will give to the next collaborator calls, in call order for each port (R331 to R335;
none is a reported failure), and the next answers of the allocation oracle (R17). Inputs of the machine, not hardware. -/
structure Answers where
  /-- Fec.encode. -/
  fecEncode : List (Option (List Bool))
  /-- Fec.decode. -/
  fecDecode : List (Option (List Bool × Bool))
  /-- Seq.gen. -/
  seqGen : List (Option (List Bool))
  /-- Chest.equalize. -/
  equalize : List (Option (List (List Sample)))
  /-- Dmrs.vals. -/
  dmrsVals : List (Option (List Sample))
  /-- Pdcch.dmrs. -/
  pdcchDmrs : List (Option (List (Nat × Nat × Sample)))
  /-- Pdcch.encode. -/
  pdcchEncode : List (Option (List (Nat × Nat × Sample)))
  /-- Ofdm.transform. -/
  transform : List Bool
  /-- AllocOk draws. -/
  alloc : List Bool
deriving DecidableEq, Repr

/-- R67: one collaborator call of the event history, with its arguments and its answer. The arguments are the lists of R331
to R335, and after them, for the two calls that are given a DMRS configuration, the mapping type of the grant: R40, D38 and U22
have GR_MAP_TYPE passed to collaborators, no list names which (DEDUCED, unsafe, log 17). -/
inductive CollabEvent where
  /-- R331 `Fec.encode(a, tbs, G, Qm, nu, rv, R2048, mcs)`. -/
  | fecEncode (a : List Bool) (tbs g qm nu : Nat) (rv : BitVec 2) (r : BitVec 12) (mcs : BitVec 5)
      (answer : Option (List Bool))
  /-- R331 `Fec.decode(llr, G, tbs, Qm, nu, rv, R2048, mcs)`. -/
  | fecDecode (llr : List Llr) (g tbs qm nu : Nat) (rv : BitVec 2) (r : BitVec 12) (mcs : BitVec 5)
      (answer : Option (List Bool × Bool))
  /-- R334 `Seq.gen(cell_id, rnti, slot, cw, len)`. -/
  | seqGen (cellId : BitVec 10) (rnti : BitVec 16) (slot : BitVec 8) (cw len : Nat) (answer : Option (List Bool))
  /-- R332 `Chest.equalize(CE, r, np, nu, P, dmrs_type, dmrs_sym, ports)`; R40 the mapping type. -/
  | equalize (ce : Mem CeElem) (r : List (List Sample)) (np nu : Nat) (p : List (Nat × Nat)) (dmrsType : Bool)
      (dmrsSym : BitVec 14) (ports : BitVec 12) (mapType : Bool) (answer : Option (List (List Sample)))
  /-- R335 `Dmrs.vals(cell_id, slot, dir, dmrs_type, dmrs_ptr, ncg, positions)`, positions as (port, l, k); R40 the mapping
  type. -/
  | dmrsVals (cellId : BitVec 10) (slot : BitVec 8) (dir dmrsType : Bool) (dmrsPtr ncg : BitVec 2)
      (positions : List (Nat × Nat × Nat)) (mapType : Bool) (answer : Option (List Sample))
  /-- R335 `Pdcch.dmrs(coreset, carrier, cell_id, slot, aggr, ncce)`. -/
  | pdcchDmrs (coreset : Coreset) (carrier : Carrier) (cellId : BitVec 10) (slot : BitVec 8) (aggr : BitVec 5)
      (ncce : BitVec 8) (answer : Option (List (Nat × Nat × Sample)))
  /-- R335 `Pdcch.encode(coreset, carrier, msg, len, rnti, cell_id, slot, aggr, ncce)`. -/
  | pdcchEncode (coreset : Coreset) (carrier : Carrier) (msg : List Bool) (len : Nat) (rnti : BitVec 16)
      (cellId : BitVec 10) (slot : BitVec 8) (aggr : BitVec 5) (ncce : BitVec 8)
      (answer : Option (List (Nat × Nat × Sample)))
  /-- R333 `Ofdm.transform(a, carrier, grid)`, grid by rows of one symbol. -/
  | transform (a : Nat) (carrier : Carrier) (grid : List (List Sample)) (ok : Bool)
deriving DecidableEq, Repr

/-- The environment of the instance: schedule, scripted answers, draw counter, event history and the last read. None of it
is a register or memory of the block. -/
structure Env where
  /-- Who moves next, and what the host does (R15, R130): the host program and its interleaving with the executor. DESIGN
  CHOICE, safe (log 7). -/
  schedule : List Turn
  /-- R330: answers waiting. -/
  answers : Answers
  /-- How many free values the commands have drawn. -/
  draws : Nat
  /-- How many free values the host's reads have drawn. -/
  portDraws : Nat
  /-- R67: the collaborator calls made so far, oldest first. -/
  history : List CollabEvent
  /-- What the host's last read returned. -/
  readData : Option ReadData
deriving DecidableEq, Repr

/-- R20: the whole machine. -/
structure State where
  /-- CMD, STATUS, ERRINFO, CMDCNT. -/
  sys : SystemRegs
  /-- Argument and configuration registers. -/
  args : ArgRegs
  /-- GR_*, TB[0], TB[1], CFG_*. -/
  recs : Records
  /-- RES_*. -/
  res : ResRegs
  /-- RX_*. -/
  rx : RxRegs
  /-- PIPE state registers. -/
  pipe : PipeRegs
  /-- SA state registers and the latched CORESET. -/
  sa : SaRegs
  /-- The memory spaces. -/
  mem : Memories
  /-- The environment. -/
  env : Env
deriving DecidableEq, Repr

/-! ## Reasons a step can stop -/

/-- The ways a step of this machine faults: none, so there is no constructor. R14: an error is recorded in STATUS and ERRINFO
and the machine goes on; R368: every command has a defined outcome; U6, U9, U15: a refused access has no effect. Safe: the
machine has no stop for the model to miss. -/
inductive Fault
deriving DecidableEq, Repr

/-- Refusals. -/
inductive Refusal where
  /-- A command the model gives no meaning to, by its mnemonic. No arm of exec raises it: all 20 commands are modelled.
  Safe. -/
  | notModelled (mnemonic : String)
deriving DecidableEq, Repr

/-! ## Reset (R68, R350, R351): every register 0, every memory element undefined -/

/-- R351: no carrier. -/
def Carrier.zero : Carrier := { nprb := 0, mu := 0, cp := false, nports := 0 }

/-- R351: all CS_* zero. As the latched CORESET's value after reset, which R351 leaves unspecified, it is a DESIGN CHOICE,
unsafe (log 1). -/
def Coreset.zero : Coreset := { freqLo := 0, freqHi := 0, dur := 0, id := 0, opaqueWord := 0 }

/-- R351: an HL bank after reset. -/
def HlBank.zero : HlBank :=
  { mcsTable := 0, allocType := 0, ssAssoc := 0, tdra := Vector.replicate 16 0, apt := Vector.replicate 32 0,
    dmrs := Vector.replicate 4 0, rsv := Vector.replicate 14 0 }

/-- R351: a transport-block descriptor after reset; also what DCI2GRANT writes to TB[1] (R162). -/
def TbRegs.zero : TbRegs := { en := false, mcs := 0, qm := 0, r := 0, tbs := 0, rv := 0, nbits := 0 }

/-- R351: the decode result of one codeword after reset; also "no codeword" of R254. -/
def RxCw.zero : RxCw := { ok := false, valid := false, evm := 0, len := 0 }

/-- R351: the system registers after reset. -/
def SystemRegs.zero : SystemRegs :=
  { cmd := 0, busy := false, done := false, err := false, haz := false, errClass := 0, lastOp := 0, errCode := 0,
    errStep := 0, cmdcnt := 0 }

/-- R351: the argument and configuration registers after reset. -/
def ArgRegs.zero : ArgRegs :=
  { car := Carrier.zero
    pa := { maxPrb := 0, maxLayers := 0, maxCw := 0, measureEvm := false }
    cs := Coreset.zero
    hl0 := HlBank.zero
    hl1 := HlBank.zero
    dci := { format := 0, ssType := 0, rntiType := 0, fda := 0, tda := 0, mcs := 0, rv := 0, ports := 0, dmrsPtr := 0 }
    op := { table := 0, format := 0, ssType := 0, rntiType := 0, mcs := 0, nre := 0, sc := 0, r := 0, qm := 0, nlayers := 0 }
    en := { cellId := 0, rnti := 0, slot := 0, precode := false, payLen0 := 0, payLen1 := 0, tctx := 0 }
    pd := { aggr := 0, ncce := 0, msgLen := 0, msg := Vector.replicate 4 0 } }

/-- R351: Grant, TB and CFG after reset. -/
def Records.zero : Records :=
  { gr := { valid := false, dir := false, format := 0, ssType := 0, rntiType := 0, rbStart := 0, rbLen := 0,
            mapType := false, symS := 0, symL := 0, nlayers := 0, ncg := 0, ports := 0, dmrsPtr := 0, nre := 0,
            nreAvail := 0, prbMask := Vector.replicate 9 0 }
    tb0 := TbRegs.zero
    tb1 := TbRegs.zero
    cfg := { valid := false, mcsTable := 0, dmrsType := false, dmrsSym := 0, rsv := Vector.replicate 14 0 } }

/-- R351: RES_* after reset. -/
def ResRegs.zero : ResRegs := { nreAvail := 0, rateInvalid := false, rate := 0, qm := 0, nre := 0, tbs := 0 }

/-- R351: RX_* after reset. -/
def RxRegs.zero : RxRegs := { cw0 := RxCw.zero, cw1 := RxCw.zero, evmValid := false, tctx := 0 }

/-- R351: the PIPE after reset (UNINIT, no capacity); also after PIPE_FREE (R224). -/
def PipeRegs.zero : PipeRegs :=
  { state := .uninit, role := .transmitter, capPrb := 0, capLayers := 0, capCw := 0, evmEn := false, car := Carrier.zero }

/-- R351: the SA after reset (NO_CARRIER, no capacity, no CORESET). -/
def SaRegs.zero : SaRegs :=
  { state := .noCarrier, capPrb := 0, capPorts := 0, car := Carrier.zero, csValid := false, coreset := Coreset.zero }

/-- R351: every memory element undefined. -/
def Memories.undefined : Memories :=
  { slotbuf := Vector.replicate 4 [], payload := Vector.replicate 2 [], rxbuf := Vector.replicate 4 [], ce := [],
    rxpayload := Vector.replicate 2 [] }

/-- An environment in which nothing is scheduled and nothing is scripted: R353, the first command is whatever the host
first writes. The values of the model's own fields are a DESIGN CHOICE, unsafe (log 9). -/
def Env.empty : Env :=
  { schedule := []
    answers := { fecEncode := [], fecDecode := [], seqGen := [], equalize := [], dmrsVals := [], pdcchDmrs := [],
                 pdcchEncode := [], transform := [], alloc := [] }
    draws := 0
    portDraws := 0
    history := []
    readData := none }

/-- R68, R351: the machine right after reset. -/
def State.reset : State :=
  { sys := SystemRegs.zero, args := ArgRegs.zero, recs := Records.zero, res := ResRegs.zero, rx := RxRegs.zero,
    pipe := PipeRegs.zero, sa := SaRegs.zero, mem := Memories.undefined, env := Env.empty }

end Sys2Proof.Machine
end

