-- ==== Sys2Proof/Machine/Flags.lean ====
section
/-! DEFINITION. Status flags, error classes and codes (R23, R25, R310, R311, R318, R124). -/

namespace Sys2Proof.Machine

/-- R311: the error codes that a command can raise. -/
inductive ErrCode where
  /-- The command word is not well formed. -/
  | iiCmdReserved
  /-- The unit is not in a lifecycle state that allows the command. -/
  | iiState
  /-- A CAR_* field is outside its legal range. -/
  | iiCarrier
  /-- SA has no carrier or SA_CAR ≠ PIPE_CAR. -/
  | iiCarrierMismatch
  /-- GR_VALID = 0 or CFG_VALID = 0. -/
  | iiGrantInvalid
  /-- No allocated resource block. -/
  | iiNoPrb
  /-- An empty symbol range, or one that leaves the slot. -/
  | iiEmptySymbols
  /-- An allocated resource block at or beyond the carrier's count. -/
  | iiPrbRange
  /-- A reserved or unfitting enumeration code. -/
  | iiEnum
  /-- The RNTI type is not associated with the search-space type. -/
  | iiAssoc
  /-- DCI_FDA is not a RIV of the bandwidth. -/
  | iiRiv
  /-- The selected time-domain row is not valid. -/
  | iiTdra
  /-- The selected antenna-port row is unusable. -/
  | iiApt
  /-- The selected DMRS row is not valid. -/
  | iiDmrs
  /-- More layers than antenna ports. -/
  | iiLayersPorts
  /-- Payload length, TBS or message length. -/
  | iiPayloadLen
  /-- TB_NBITS below the coded length, or that length is 0. -/
  | iiNbits
  /-- A PA_* field is outside its legal range. -/
  | iiInitArgs
  /-- CS_DUR outside 1..3 or an empty bitmap. -/
  | iiCoreset
  /-- A control-channel position outside the control region. -/
  | iiPdcchLoc
  /-- A Grant, TB or CFG register holds an illegal value. -/
  | iiGrantField
  /-- Transmitter command on a receiver PIPE or the reverse. -/
  | iiRole
  /-- HL_ALLOC_TYPE is not the contiguous type. -/
  | ucAllocType
  /-- The second codeword is requested. -/
  | ucCw1
  /-- EN_PRECODE = 1. -/
  | ucPrecode
  /-- The antenna-port row names more than 4 ports. -/
  | ucLayers
  /-- An allocated resource block at or beyond PIPE_CAP_PRB. -/
  | cePrb
  /-- GR_NLAYERS above PIPE_CAP_LAYERS. -/
  | ceLayers
  /-- More enabled codewords than PIPE_CAP_CW. -/
  | ceCw
  /-- TB_NBITS above the recomputed coded length. -/
  | ceRe
  /-- An allocation or growth failed. -/
  | ceAlloc
  /-- The MCS lookup has no defined result. -/
  | ciMcs
  /-- The TBS derivation has no defined result. -/
  | ciTbs
  /-- A collaborator failed or answered in the wrong shape. -/
  | ciCollab
deriving DecidableEq, Repr

/-- R311: the number of a code. -/
def errCodeNum : ErrCode → BitVec 8
  | .iiCmdReserved => 0x10
  | .iiState => 0x11
  | .iiCarrier => 0x12
  | .iiCarrierMismatch => 0x13
  | .iiGrantInvalid => 0x14
  | .iiNoPrb => 0x15
  | .iiEmptySymbols => 0x16
  | .iiPrbRange => 0x17
  | .iiEnum => 0x18
  | .iiAssoc => 0x19
  | .iiRiv => 0x1A
  | .iiTdra => 0x1B
  | .iiApt => 0x1C
  | .iiDmrs => 0x1D
  | .iiLayersPorts => 0x1E
  | .iiPayloadLen => 0x1F
  | .iiNbits => 0x20
  | .iiInitArgs => 0x21
  | .iiCoreset => 0x22
  | .iiPdcchLoc => 0x23
  | .iiGrantField => 0x24
  | .iiRole => 0x25
  | .ucAllocType => 0x40
  | .ucCw1 => 0x41
  | .ucPrecode => 0x42
  | .ucLayers => 0x43
  | .cePrb => 0x60
  | .ceLayers => 0x61
  | .ceCw => 0x62
  | .ceRe => 0x63
  | .ceAlloc => 0x64
  | .ciMcs => 0x80
  | .ciTbs => 0x81
  | .ciCollab => 0x82

/-- R310, R311: the class of a code number, fixed by its range: 0x10 to 0x3F class 1, 0x40 to 0x5F class 2, 0x60 to 0x7F
class 3, 0x80 to 0x9F class 4. -/
def classOfNum (n : BitVec 8) : BitVec 3 :=
  if n.toNat < 0x40 then 1 else if n.toNat < 0x60 then 2 else if n.toNat < 0x80 then 3 else 4

/-- R310, R311: the class of a code. -/
def errClassNum (c : ErrCode) : BitVec 3 := classOfNum (errCodeNum c)

/-- R13, R318: what `raise Class(code, step)` names; the class follows from the code. -/
structure Raised where
  /-- The code. -/
  code : ErrCode
  /-- ERR_STEP. -/
  step : BitVec 4
deriving DecidableEq, Repr

/-- R316: the code of the first failing line of a list of checks; no later check matters. -/
def firstFailing : List (Bool × ErrCode) → Option ErrCode
  | [] => none
  | (fails, code) :: rest => if fails then some code else firstFailing rest

/-- R316: run a list of checks, raising the first that fails with the given step. -/
def guardLines (step : BitVec 4) (lines : List (Bool × ErrCode)) : Except Raised Unit :=
  match firstFailing lines with
  | some code => .error { code := code, step := step }
  | none => .ok ()

/-- R318, issue: what the issue of word w does to the system registers. -/
def issueFlags (w : Word) (y : SystemRegs) : SystemRegs :=
  { y with cmd := w, busy := true, done := false, err := false, errClass := 0, lastOp := w.extractLsb' 0 8, errCode := 0,
           errStep := 0 }

/-- R318, complete: error entry, the three register writes (R321). -/
def errorFlags (e : Raised) (y : SystemRegs) : SystemRegs :=
  { y with err := true, errClass := errClassNum e.code, errCode := errCodeNum e.code, errStep := e.step }

/-- R24, R318, complete: CMDCNT advances by 1 modulo 2^32, DONE is set, BUSY is cleared. -/
def doneFlags (y : SystemRegs) : SystemRegs := { y with cmdcnt := y.cmdcnt + 1, done := true, busy := false }

/-- R366: HAZ is set. -/
def hazardFlags (y : SystemRegs) : SystemRegs := { y with haz := true }

/-- R23: the STATUS word. -/
def statusWord (y : SystemRegs) : Word :=
  0#16 ++ (y.lastOp ++ (0#1 ++ (y.errClass ++ (BitVec.ofBool y.haz ++ (BitVec.ofBool y.err ++
    (BitVec.ofBool y.done ++ BitVec.ofBool y.busy))))))

/-- R23: the ERRINFO word. -/
def errinfoWord (y : SystemRegs) : Word := 0#20 ++ (y.errStep ++ y.errCode)

/-- R44, R124: the RES_RATE word. -/
def rateWord (r : ResRegs) : Word := BitVec.ofBool r.rateInvalid ++ (0#19 ++ r.rate)

/-- R49: the RX_CRC[c] word. -/
def crcWord (c : RxCw) : BitVec 2 := BitVec.ofBool c.valid ++ BitVec.ofBool c.ok

end Sys2Proof.Machine
end

