-- ==== Sys2Proof/Machine/Ops.lean ====
section
/-! DEFINITION. The shared operations: memory spaces, free draws, issue and completion of a command (error entry included,
R318, and the return from it, R320), the allocation oracle (R17) and the collaborator ports (R330 to R335). -/

namespace Sys2Proof.Machine

open Sys2Proof.Config

/-! ## One memory space (R61, R70) -/

/-- `MemRead` of one element; none is an undefined element (R61). -/
def memRead {α : Type} : Mem α → Nat → Option α
  | [], _ => none
  | (b, v) :: m, a => if a = b then some v else memRead m a

/-- `MemWrite` of one element. -/
def memWrite {α : Type} : Mem α → Nat → α → Mem α
  | [], a, v => [(a, v)]
  | (b, u) :: m, a, v =>
    if a < b then (a, v) :: (b, u) :: m
    else if a = b then (a, v) :: m
    else (b, u) :: memWrite m a v

/-- Writes in list order. -/
def memWriteAll {α : Type} (m : Mem α) (ws : List (Nat × α)) : Mem α := ws.foldl (fun acc w => memWrite acc w.1 w.2) m

/-- The canonical form: addresses strictly rising. An entry is always a defined value and an unlisted address is
undefined, so no entry equals what an unlisted address reads as. -/
def memWf {α : Type} : Mem α → Bool
  | [] => true
  | [_] => true
  | (a, _) :: (b, v) :: m => decide (a < b) && memWf ((b, v) :: m)

/-- Element `addr` of buffer `a` of a family of memory spaces. -/
def bankRead {α : Type} {n : Nat} (t : Vector (Mem α) n) (a addr : Nat) : Option α := memRead (t[a]?.getD []) addr

/-- Write element `addr` of buffer `a`. A buffer number beyond the family names no element: nothing is written. -/
def bankWrite {α : Type} {n : Nat} (t : Vector (Mem α) n) (a addr : Nat) (v : α) : Vector (Mem α) n :=
  t.setIfInBounds a (memWrite (t[a]?.getD []) addr v)

/-- Every memory space is in the canonical form. -/
def memoriesWf (m : Memories) : Bool :=
  m.slotbuf.toList.all memWf && m.payload.toList.all memWf && m.rxbuf.toList.all memWf && memWf m.ce &&
    m.rxpayload.toList.all memWf

/-! ## Grid writes to the slot buffer (R71) -/

/-- R71, R73: the element address of symbol l, subcarrier k in a grid of N resource blocks. -/
def gridAddr (n l k : Nat) : Nat := l * (12 * n) + k

/-- One pending write `SLOT[a][l][k] <- v`. -/
structure SlotWrite where
  /-- Antenna. -/
  a : Nat
  /-- Symbol. -/
  l : Nat
  /-- Subcarrier of the carrier. -/
  k : Nat
  /-- The value. -/
  v : Sample
deriving DecidableEq, Repr

/-- R71: the writes, in list order, to a slot buffer of N resource blocks. -/
def slotWriteAll (n : Nat) (t : Vector (Mem Sample) 4) (ws : List SlotWrite) : Vector (Mem Sample) 4 :=
  ws.foldl (fun acc w => bankWrite acc w.a (gridAddr n w.l w.k) w.v) t

/-- The writes applied to the machine's slot buffer, in the geometry of SA_CAR (R71). -/
def putSlot (ws : List SlotWrite) (s : State) : State :=
  { s with mem := { s.mem with slotbuf := slotWriteAll s.sa.car.nprb.toNat s.mem.slotbuf ws } }

/-- R61: every element of SLOTBUF[0..3] becomes undefined. -/
def slotUndefined (s : State) : State := { s with mem := { s.mem with slotbuf := Vector.replicate 4 [] } }

/-! ## Free draws (R61, R366) -/

/-- n free values have been used. -/
def advanceDraws (n : Nat) (s : State) : State := { s with env := { s.env with draws := s.env.draws + n } }

/-- The elements at a list of (buffer, address) places, in order. The i-th, if undefined, yields the arbitrary Sample of
draw d + i (R61, R251, R279). -/
def samplesAt {n : Nat} (t : Vector (Mem Sample) n) (d : Nat) (places : List (Nat × Nat)) : List Sample :=
  places.zipIdx.map fun p => (bankRead t p.1.1 p.1.2).getD (freeSample (d + p.2))

/-- R72: bits 0 .. len−1 of a bit array; bit i, if undefined, is the arbitrary bit of draw d + i. -/
def bitsFrom (m : Mem Bool) (d len : Nat) : List Bool :=
  (List.range len).map fun i => (memRead m i).getD (freeBit (d + i))

/-! ## Issue, error entry, completion and return (R318 to R321) -/

/-- R318: how the rule of a command ended. The state carries the writes the rule made before it ended. -/
inductive CmdEnd where
  /-- Success. -/
  | done (s : State)
  /-- The first `raise`. -/
  | raised (e : Raised) (s : State)
deriving DecidableEq, Repr

/-- R318, issue of word w. -/
def issue (w : Word) (s : State) : State := { s with sys := issueFlags w s.sys }

/-- R318, error entry: class, code and step are recorded; R319, nothing else is saved. -/
def takeError (e : Raised) (s : State) : State := { s with sys := errorFlags e s.sys }

/-- R318, completion; R320, the return: the block is idle again after an error as after a success, and accepts the next
command. There is no other return (no handler, no return command). -/
def completeCmd (s : State) : State := { s with sys := doneFlags s.sys }

/-- R318: complete the command as its rule ended. -/
def finishState : CmdEnd → State
  | .done s => completeCmd s
  | .raised e s => completeCmd (takeError e s)

/-- R14, R318: every command ends in a next state. -/
def finish (r : CmdEnd) : Host.Outcome State Fault Refusal := .next (finishState r)

/-- R316: the rest of a rule runs only if its checks pass; a raise leaves the state as it was. -/
def orRaise {α : Type} (r : Except Raised α) (s : State) (k : α → CmdEnd) : CmdEnd :=
  match r with
  | .ok x => k x
  | .error e => .raised e s

/-! ## The allocation oracle (R17) -/

/-- R17: which unit asks. -/
inductive AllocUnit where
  /-- The PIPE: resource blocks and layers. -/
  | pipe
  /-- The SA: resource blocks and ports. -/
  | sa
deriving DecidableEq, Repr

/-- R17: a request within the hardware maxima of R8. -/
def allocWithinMaxima (u : AllocUnit) (nprb nx : Nat) : Bool :=
  decide (nprb ≤ hwMaxPrb) && decide (nx ≤ (match u with | .pipe => hwMaxLayers | .sa => hwMaxPorts))

/-- R17: `AllocOk(unit, nprb, nports_or_layers)`, false exactly when the request exceeds a hardware maximum or the
environment scripts a refusal (U4 allows this reading; DESIGN CHOICE, unsafe, log 11). -/
def allocOk (u : AllocUnit) (nprb nx : Nat) (s : State) : Bool :=
  allocWithinMaxima u nprb nx && (s.env.answers.alloc.head?.getD true)

/-- The oracle has been asked once. -/
def allocAsked (s : State) : State :=
  { s with env := { s.env with answers := { s.env.answers with alloc := s.env.answers.alloc.tail } } }

/-! ## Collaborator ports (R330): take the next answer, record the call

Each port takes its next scripted answer. With none left the answer is a free value of the draw counter (log 6). -/

/-- The next answer of a port: the head of its script, or a free value. -/
def nextAnswer {α : Type} (script : List α) (free : Nat → α) (d : Nat) : α := script.head?.getD (free d)

/-- R67: a call has been made: its answer is used up, one draw is counted, and the call joins the event history. -/
def recordCall (answers : Answers) (e : CollabEvent) (s : State) : State :=
  { s with env := { s.env with answers := answers, draws := s.env.draws + 1, history := s.env.history ++ [e] } }

/-- R331: the answer `Fec.encode` gives now. -/
def fecEncodeAnswer (s : State) : Option (List Bool) := nextAnswer s.env.answers.fecEncode freeFecEncode s.env.draws

/-- R331: `Fec.encode` has been called. -/
def fecEncodeCalled (a : List Bool) (g qm nu : Nat) (tb : TbRegs) (s : State) : State :=
  recordCall { s.env.answers with fecEncode := s.env.answers.fecEncode.tail }
    (.fecEncode a tb.tbs.toNat g qm nu tb.rv tb.r tb.mcs (fecEncodeAnswer s)) s

/-- R331: the answer `Fec.decode` gives now. -/
def fecDecodeAnswer (s : State) : Option (List Bool × Bool) := nextAnswer s.env.answers.fecDecode freeFecDecode s.env.draws

/-- R331: `Fec.decode` has been called. -/
def fecDecodeCalled (llr : List Llr) (g qm nu : Nat) (tb : TbRegs) (s : State) : State :=
  recordCall { s.env.answers with fecDecode := s.env.answers.fecDecode.tail }
    (.fecDecode llr g tb.tbs.toNat qm nu tb.rv tb.r tb.mcs (fecDecodeAnswer s)) s

/-- R334: the sequence an earlier call of the history gave for these arguments. -/
def knownSequence (h : List CollabEvent) (cellId : BitVec 10) (rnti : BitVec 16) (slot : BitVec 8) (cw len : Nat) :
    Option (List Bool) :=
  h.findSome? fun e =>
    match e with
    | .seqGen c r sl w n (some b) => if c = cellId ∧ r = rnti ∧ sl = slot ∧ w = cw ∧ n = len then some b else none
    | _ => none

/-- R334: the answer `Seq.gen` gives now. Deterministic: where an earlier call with equal arguments gave a sequence, a call
that does not fail gives that sequence again. -/
def seqGenAnswer (cw len : Nat) (s : State) : Option (List Bool) :=
  (nextAnswer s.env.answers.seqGen freeSeqGen s.env.draws).map fun b =>
    (knownSequence s.env.history s.args.en.cellId s.args.en.rnti s.args.en.slot cw len).getD b

/-- R334: `Seq.gen` has been called. -/
def seqGenCalled (cw len : Nat) (s : State) : State :=
  recordCall { s.env.answers with seqGen := s.env.answers.seqGen.tail }
    (.seqGen s.args.en.cellId s.args.en.rnti s.args.en.slot cw len (seqGenAnswer cw len s)) s

/-- R332: the answer `Chest.equalize` gives now. -/
def equalizeAnswer (s : State) : Option (List (List Sample)) := nextAnswer s.env.answers.equalize freeEqualize s.env.draws

/-- R332, R40: `Chest.equalize` has been called, GR_MAP_TYPE passed after the list of R252 (log 17). -/
def equalizeCalled (r : List (List Sample)) (np nu : Nat) (p : List (Nat × Nat)) (s : State) : State :=
  recordCall { s.env.answers with equalize := s.env.answers.equalize.tail }
    (.equalize s.mem.ce r np nu p s.recs.cfg.dmrsType s.recs.cfg.dmrsSym s.recs.gr.ports s.recs.gr.mapType
      (equalizeAnswer s)) s

/-- R335: the answer `Dmrs.vals` gives now. -/
def dmrsValsAnswer (s : State) : Option (List Sample) := nextAnswer s.env.answers.dmrsVals freeDmrsVals s.env.draws

/-- R335, R277, R40: `Dmrs.vals` has been called, GR_MAP_TYPE passed after the argument list of R277 (DEDUCED, unsafe,
log 17). -/
def dmrsValsCalled (positions : List (Nat × Nat × Nat)) (s : State) : State :=
  recordCall { s.env.answers with dmrsVals := s.env.answers.dmrsVals.tail }
    (.dmrsVals s.args.en.cellId s.args.en.slot s.recs.gr.dir s.recs.cfg.dmrsType s.recs.gr.dmrsPtr s.recs.gr.ncg positions
      s.recs.gr.mapType (dmrsValsAnswer s)) s

/-- R335: the answer `Pdcch.dmrs` gives now. -/
def pdcchDmrsAnswer (s : State) : Option (List (Nat × Nat × Sample)) :=
  nextAnswer s.env.answers.pdcchDmrs freePdcchDmrs s.env.draws

/-- R335, R274: `Pdcch.dmrs` has been called. -/
def pdcchDmrsCalled (s : State) : State :=
  recordCall { s.env.answers with pdcchDmrs := s.env.answers.pdcchDmrs.tail }
    (.pdcchDmrs s.sa.coreset s.sa.car s.args.en.cellId s.args.en.slot s.args.pd.aggr s.args.pd.ncce (pdcchDmrsAnswer s)) s

/-- R335: the answer `Pdcch.encode` gives now. -/
def pdcchEncodeAnswer (s : State) : Option (List (Nat × Nat × Sample)) :=
  nextAnswer s.env.answers.pdcchEncode freePdcchEncode s.env.draws

/-- R274: msg, bits 0 .. PD_MSG_LEN−1 of PD_MSG. -/
def pdcchMessage (pd : PdArgs) : List Bool := (List.range pd.msgLen.toNat).map (streamBit pd.msg)

/-- R335, R274: `Pdcch.encode` has been called. -/
def pdcchEncodeCalled (s : State) : State :=
  recordCall { s.env.answers with pdcchEncode := s.env.answers.pdcchEncode.tail }
    (.pdcchEncode s.sa.coreset s.sa.car (pdcchMessage s.args.pd) s.args.pd.msgLen.toNat s.args.en.rnti s.args.en.cellId
      s.args.en.slot s.args.pd.aggr s.args.pd.ncce (pdcchEncodeAnswer s)) s

/-- R333: the answer `Ofdm.transform` gives now. -/
def transformAnswer (s : State) : Bool := nextAnswer s.env.answers.transform freeTransform s.env.draws

/-- R333, R279: `Ofdm.transform` has been called. -/
def transformCalled (a : Nat) (grid : List (List Sample)) (s : State) : State :=
  recordCall { s.env.answers with transform := s.env.answers.transform.tail }
    (.transform a s.sa.car grid (transformAnswer s)) s

end Sys2Proof.Machine
end

