-- ==== Sys2Proof/Machine/Operands.lean ====
section
/-! DEFINITION. The operands of commands: carriers (R26, R123), packed rows (R119 to R121), the resource pattern of a grant
and its counts (R146 to R149), the ordered positions (R228, R277), register codes (R28, R29, R116). -/

namespace Sys2Proof.Machine

open Sys2Proof.Config

/-! ## Carriers (R26, R123) -/

/-- R8: NSYMB(cp), symbols per slot. -/
def nsymb (cp : Bool) : Nat := if cp then 12 else 14

/-- R26: a carrier value is valid when all four fields are legal. -/
def carrierValid (c : Carrier) : Bool :=
  decide (1 ≤ c.nprb.toNat) && decide (c.nprb.toNat ≤ hwMaxPrb) && decide (c.mu.toNat ≤ 4) &&
    decide (1 ≤ c.nports.toNat) && decide (c.nports.toNat ≤ hwMaxPorts)

/-- R123: the packed carrier, bits 15:0 (nports, cp, mu, nprb from the top). -/
def packCar (c : Carrier) : BitVec 16 := c.nports ++ (BitVec.ofBool c.cp ++ (c.mu ++ c.nprb))

/-- R70, R71: the number of elements of one antenna's grid under a carrier. -/
def gridSize (c : Carrier) : Nat := nsymb c.cp * (12 * c.nprb.toNat)

/-! ## Register codes -/

/-- R28: the code of PIPE_STATE. -/
def pipeStateCode : PipeState → BitVec 3
  | .uninit => 0
  | .partialInit => 1
  | .ready => 2
  | .carrierSet => 3

/-- R116: the code of PIPE_ROLE. -/
def roleCode : Role → BitVec 1
  | .transmitter => 0
  | .receiver => 1

/-- R29: the code of SA_STATE. -/
def saStateCode : SaState → BitVec 1
  | .noCarrier => 0
  | .carrierSet => 1

/-! ## Packed rows -/

/-- R119: VALID of a time-domain row. -/
def tdraValid (r : BitVec 10) : Bool := r.getLsbD 0
/-- R119: MAP. -/
def tdraMap (r : BitVec 10) : Bool := r.getLsbD 1
/-- R119: S. -/
def tdraS (r : BitVec 10) : BitVec 4 := r.extractLsb' 2 4
/-- R119: L. -/
def tdraL (r : BitVec 10) : BitVec 4 := r.extractLsb' 6 4

/-- R120: VALID of an antenna-port row. -/
def aptValid (r : BitVec 15) : Bool := r.getLsbD 0
/-- R120: NCG. -/
def aptNcg (r : BitVec 15) : BitVec 2 := r.extractLsb' 1 2
/-- R120: PORTS. -/
def aptPorts (r : BitVec 15) : BitVec 12 := r.extractLsb' 3 12

/-- R121: VALID of a DMRS row. -/
def dmrsValid (r : BitVec 16) : Bool := r.getLsbD 0
/-- R121: TYPE. -/
def dmrsType (r : BitVec 16) : Bool := r.getLsbD 1
/-- R121: SYM. -/
def dmrsSym (r : BitVec 16) : BitVec 14 := r.extractLsb' 2 14

/-- The HL bank of a direction (R154, R155): bank 0 downlink, bank 1 uplink. -/
def hlBank (dir : Bool) (a : ArgRegs) : HlBank := if dir then a.hl1 else a.hl0

/-! ## The resource pattern (R146 to R149) -/

/-- What the element counts and positions of a transmission depend on: the operands of `SlotNre()` (R149). -/
structure Pattern where
  /-- GR_PRB_MASK. -/
  prbMask : Vector Word 9
  /-- GR_S. -/
  symS : Nat
  /-- GR_L. -/
  symL : Nat
  /-- GR_NCG. -/
  ncg : Nat
  /-- CFG_DMRS_TYPE. -/
  dmrsType : Bool
  /-- CFG_DMRS_SYM. -/
  dmrsSym : BitVec 14
  /-- CFG_RSV. -/
  rsv : Vector (BitVec 12) 14

/-- The pattern in the GR_* and CFG_* registers. -/
def patternOf (r : Records) : Pattern :=
  { prbMask := r.gr.prbMask, symS := r.gr.symS.toNat, symL := r.gr.symL.toNat, ncg := r.gr.ncg.toNat,
    dmrsType := r.cfg.dmrsType, dmrsSym := r.cfg.dmrsSym, rsv := r.cfg.rsv }

/-- R41: resource block n is allocated. -/
def prbBit (mask : Vector Word 9) (n : Nat) : Bool := (rowAt mask (n / 32)).getLsbD (n % 32)

/-- R146: `PrbSet()`, ascending. -/
def prbSet (mask : Vector Word 9) : List Nat := (List.range 288).filter (prbBit mask)

/-- R146: `NPrb()`. -/
def nPrb (mask : Vector Word 9) : Nat := (prbSet mask).length

/-- R157: the bitmap of the blocks start .. start+len−1. -/
def prbMaskOf (start len : Nat) : Vector Word 9 :=
  Vector.ofFn fun w : Fin 9 => bitsOf 32 fun b => decide (start ≤ 32 * w.val + b) && decide (32 * w.val + b < start + len)

/-- R147: `Excl(l, sc)`: the element carries no data. -/
def excl (p : Pattern) (l sc : Nat) : Bool :=
  (p.dmrsSym.getLsbD l && dmrsResv p.dmrsType p.ncg sc) || (rowAt p.rsv l).getLsbD sc

/-- The symbols of the span S .. S+L−1. -/
def spanOf (p : Pattern) : List Nat := List.range' p.symS p.symL

/-- The subcarrier offsets of a resource block that carry data in symbol l. -/
def dataScs (p : Pattern) (l : Nat) : List Nat := (List.range 12).filter fun sc => !excl p l sc

/-- R148: `NrePerPrb()`. -/
def nrePerPrb (p : Pattern) : Nat := ((spanOf p).map fun l => (dataScs p l).length).sum

/-- R148: `NreAvail()`. -/
def nreAvail (p : Pattern) : Nat := nPrb p.prbMask * nrePerPrb p

/-- R148: `NreEff()`, with the cap NRE_CAP of 156 per resource block. -/
def nreEff (p : Pattern) : Nat := nPrb p.prbMask * min 156 (nrePerPrb p)

/-- R149, R159, R225 line 12: an illegal CDM-group count for a DMRS type. -/
def ncgIllegal (ty : Bool) (ncg : Nat) : Bool := decide (ncg = 0) || (!ty && decide (ncg = 3))

/-- R149: the checks of `SlotNre()`, in order. -/
def slotNreLines (p : Pattern) : List (Bool × ErrCode) :=
  [ (decide (nPrb p.prbMask = 0), .iiNoPrb),
    (decide (p.symL = 0) || decide (14 < p.symS + p.symL), .iiEmptySymbols),
    (ncgIllegal p.dmrsType p.ncg, .iiGrantField) ]

/-- R149: `SlotNre()`, (NreEff, NreAvail), its errors carrying the step of the caller. -/
def slotNre (step : BitVec 4) (p : Pattern) : Except Raised (Nat × Nat) :=
  match guardLines step (slotNreLines p) with
  | .error e => .error e
  | .ok _ => .ok (nreEff p, nreAvail p)

/-! ## Ordered positions (R228, R277) -/

/-- R228: `PosList(N)`, (l, k) with k = 12n + sc: symbol by symbol, then frequency upward, excluded elements skipped. The
positions do not depend on N. -/
def posList (p : Pattern) : List (Nat × Nat) :=
  (spanOf p).flatMap fun l => (prbSet p.prbMask).flatMap fun n => (dataScs p l).map fun sc => (l, 12 * n + sc)

/-- R277: the DMRS positions Q of the grant, as (layer j, port, l, k). -/
def dmrsPositions (p : Pattern) (ports : BitVec 12) : List (Nat × Nat × Nat × Nat) :=
  (setBits ports).zipIdx.flatMap fun pj =>
    ((spanOf p).filter fun l => p.dmrsSym.getLsbD l).flatMap fun l =>
      (prbSet p.prbMask).flatMap fun n =>
        (groupSc p.dmrsType (portGroup p.dmrsType pj.1)).map fun sc => (pj.2, pj.1, l, 12 * n + sc)

/-- R275: `InCoreset(l, k)` under a CORESET and a carrier. -/
def inCoreset (cs : Coreset) (car : Carrier) (l k : Nat) : Bool :=
  decide (l < cs.dur.toNat) && decide (k < 12 * car.nprb.toNat) && (cs.freqHi ++ cs.freqLo).getLsbD (k / 12 / 6)

end Sys2Proof.Machine
end

