-- ==== Sys2Proof/Machine/Rae.lean ====
section
/-! DEFINITION. The Resource Allocation Engine commands (file 40 of the spec, R140 to R165): RATE_FROM_MCS, MOD_FROM_MCS,
SLOT_NRE, TBS, FILL_TB.0, FILL_TB.1, DCI2GRANT.DL, DCI2GRANT.UL. They touch no memory and call no collaborator (R140). -/

namespace Sys2Proof.Machine

open Sys2Proof.Config

/-! ## The two lookups (R144, R145) -/

/-- R143 on the OP_* operands. -/
def opLookup (op : OpArgs) : Option (Nat × Nat) := mcsLookup op.table op.format op.ssType op.rntiType op.mcs

/-- R144: RES_RATE as RATE_FROM_MCS writes it: the sentinel INVALID = 1, R2048 = 0, or the rate. -/
def rateResult (e : Option (Nat × Nat)) (r : ResRegs) : ResRegs :=
  match e with
  | none => { r with rateInvalid := true, rate := 0 }
  | some (_, rate) => { r with rateInvalid := false, rate := fieldOf 12 rate }

/-- R145: RES_MOD as MOD_FROM_MCS writes it: 0 is the "no modulation" sentinel. -/
def modResult (e : Option (Nat × Nat)) (r : ResRegs) : ResRegs :=
  match e with
  | none => { r with qm := 0 }
  | some (qm, _) => { r with qm := fieldOf 4 qm }

/-- RATE_FROM_MCS, R144. -/
def execRateFromMcs (s : State) : Host.Outcome State Fault Refusal :=
  finish (.done { s with res := rateResult (opLookup s.args.op) s.res })

/-- MOD_FROM_MCS, R145. -/
def execModFromMcs (s : State) : Host.Outcome State Fault Refusal :=
  finish (.done { s with res := modResult (opLookup s.args.op) s.res })

/-! ## Counting and transport-block size (R149, R151) -/

/-- SLOT_NRE, R149. -/
def execSlotNre (s : State) : Host.Outcome State Fault Refusal :=
  finish <| orRaise (slotNre 0 (patternOf s.recs)) s fun (eff, avail) =>
    .done { s with res := { s.res with nre := fieldOf 20 eff, nreAvail := fieldOf 20 avail } }

/-- R47, D47: a legal modulation order. -/
def qmLegal (qm : Nat) : Bool := qm == 2 || qm == 4 || qm == 6 || qm == 8

/-- R150 on the OP_* operands. -/
def opTbs (op : OpArgs) : Option Nat :=
  tbsOf op.nre.toNat (scalingDen op.sc) op.r.toNat op.qm.toNat op.nlayers.toNat

/-- R151: the operand check of TBS. -/
def tbsOperandsIllegal (op : OpArgs) : Bool :=
  !qmLegal op.qm.toNat || decide (op.nlayers.toNat < 1) || decide (4 < op.nlayers.toNat)

/-- TBS, R151. On N_info = 0, RES_TBS is written with 0 and the command fails. -/
def execTbs (s : State) : Host.Outcome State Fault Refusal :=
  finish <| orRaise (guardLines 0 [(tbsOperandsIllegal s.args.op, .iiEnum)]) s fun _ =>
    match opTbs s.args.op with
    | none => .raised { code := .ciTbs, step := 0 } { s with res := { s.res with tbs := 0 } }
    | some t => .done { s with res := { s.res with tbs := fieldOf 32 t } }

/-! ## FILL_TB (R153) -/

/-- What FILL_TB computes: Qm, rate, TBS and coded bits. -/
structure TbFill where
  /-- TB_QM. -/
  qm : Nat
  /-- TB_R. -/
  r : Nat
  /-- TB_TBS. -/
  tbs : Nat
  /-- TB_NBITS. -/
  nbits : Nat

/-- R153, step 1: the lookup. -/
def fillLookup (r : Records) (mcs : BitVec 5) : Except Raised (Nat × Nat) :=
  match mcsLookup r.cfg.mcsTable r.gr.format r.gr.ssType r.gr.rntiType mcs with
  | none => .error { code := .ciMcs, step := 1 }
  | some e => .ok e

/-- R153, step 2: the element count and the layers. -/
def fillCount (r : Records) : Except Raised (Nat × Nat) := do
  let c ← slotNre 2 (patternOf r)
  guardLines 2 [(decide (r.gr.nlayers.toNat < 1) || decide (4 < r.gr.nlayers.toNat), .iiGrantField)]
  pure c

/-- R153, step 3, and R161: the TBS computation, scaling unused. -/
def tbsStep (step : BitVec 4) (eff r qm nu : Nat) : Except Raised Nat :=
  match tbsOf eff 1 r qm nu with
  | none => .error { code := .ciTbs, step := step }
  | some t => .ok t

/-- R153, steps 1 to 3. -/
def fillTb (r : Records) (mcs : BitVec 5) : Except Raised TbFill := do
  let (qm, rate) ← fillLookup r mcs
  let (eff, avail) ← fillCount r
  let t ← tbsStep 3 eff rate qm r.gr.nlayers.toNat
  pure { qm := qm, r := rate, tbs := t, nbits := avail * qm * r.gr.nlayers.toNat }

/-- R153, commit: TB[0] keeps EN and RV. -/
def fillCommit (f : TbFill) (mcs : BitVec 5) (tb : TbRegs) : TbRegs :=
  { tb with mcs := mcs, qm := fieldOf 4 f.qm, r := fieldOf 12 f.r, tbs := fieldOf 32 f.tbs, nbits := fieldOf 32 f.nbits }

/-- FILL_TB.0, R153. -/
def execFillTb0 (s : State) : Host.Outcome State Fault Refusal :=
  finish <| orRaise (fillTb s.recs s.args.op.mcs) s fun f =>
    .done { s with recs := { s.recs with tb0 := fillCommit f s.args.op.mcs s.recs.tb0 } }

/-- FILL_TB.1, R153, R227: the second codeword is refused before anything else. -/
def execFillTb1 (s : State) : Host.Outcome State Fault Refusal :=
  finish (.raised { code := .ucCw1, step := 0 } s)

/-! ## DCI2GRANT (R154 to R165): a function of the argument registers alone (R96) -/

/-- R156: a format of the other direction, or a reserved one. -/
def formatUnfit (dir : Bool) (fmt : BitVec 3) : Bool :=
  if dir then decide (2 ≤ fmt.toNat) else !(fmt.toNat == 2 || fmt.toNat == 3)

/-- R156: the preliminary checks, ERR_STEP 15. -/
def dciPrelimLines (dir : Bool) (a : ArgRegs) : List (Bool × ErrCode) :=
  [ (!carrierValid a.car, .iiCarrier),
    (formatUnfit dir a.dci.format, .iiEnum),
    (decide (2 ≤ a.dci.ssType.toNat) || decide (8 ≤ a.dci.rntiType.toNat), .iiEnum),
    (!(hlBank dir a).ssAssoc.getLsbD (8 * a.dci.ssType.toNat + a.dci.rntiType.toNat), .iiAssoc) ]

/-- R157, step 1: the contiguous set (start, len). -/
def dciFreq (dir : Bool) (a : ArgRegs) : Except Raised (Nat × Nat) :=
  if (hlBank dir a).allocType.toNat ≠ 1 then .error { code := .ucAllocType, step := 1 }
  else match rivDecode a.car.nprb.toNat a.dci.fda.toNat with
    | none => .error { code := .iiRiv, step := 1 }
    | some sl => .ok sl

/-- R158, step 2: the selected time-domain row. -/
def dciTdraRow (dir : Bool) (a : ArgRegs) : BitVec 10 := rowAt (hlBank dir a).tdra a.dci.tda.toNat

/-- R158, step 2. -/
def dciTimeLines (dir : Bool) (a : ArgRegs) : List (Bool × ErrCode) :=
  let row := dciTdraRow dir a
  [ (!tdraValid row, .iiTdra),
    (decide ((tdraL row).toNat = 0) || decide (nsymb a.car.cp < (tdraS row).toNat + (tdraL row).toNat), .iiEmptySymbols) ]

/-- R159, step 3: the selected antenna-port row. -/
def dciAptRow (dir : Bool) (a : ArgRegs) : BitVec 15 := rowAt (hlBank dir a).apt a.dci.ports.toNat

/-- R159, step 3: the selected DMRS row. -/
def dciDmrsRow (dir : Bool) (a : ArgRegs) : BitVec 16 := rowAt (hlBank dir a).dmrs a.dci.dmrsPtr.toNat

/-- R159, step 3. -/
def dciLayerLines (dir : Bool) (a : ArgRegs) : List (Bool × ErrCode) :=
  let apt := dciAptRow dir a
  let dm := dciDmrsRow dir a
  let nu := popcount (aptPorts apt)
  let ncg := (aptNcg apt).toNat
  [ (!aptValid apt, .iiApt),
    (decide (nu = 0), .iiApt),
    (decide (4 < nu), .ucLayers),
    (decide (a.car.nports.toNat < nu), .iiLayersPorts),
    (!dmrsValid dm, .iiDmrs),
    (ncgIllegal (dmrsType dm) ncg, .iiApt),
    ((setBits (aptPorts apt)).any (portIllegal (dmrsType dm) ncg), .iiApt) ]

/-- R159: the DMRS symbols of the row restricted to the span. -/
def dciDmrsSym (dir : Bool) (a : ArgRegs) : BitVec 14 :=
  let row := dciTdraRow dir a
  bitsOf 14 fun l => (dmrsSym (dciDmrsRow dir a)).getLsbD l && decide ((tdraS row).toNat ≤ l) &&
    decide (l < (tdraS row).toNat + (tdraL row).toNat)

/-- R160: the tentative pattern of steps 1 to 3. -/
def dciPattern (dir : Bool) (a : ArgRegs) (start len : Nat) : Pattern :=
  { prbMask := prbMaskOf start len
    symS := (tdraS (dciTdraRow dir a)).toNat
    symL := (tdraL (dciTdraRow dir a)).toNat
    ncg := (aptNcg (dciAptRow dir a)).toNat
    dmrsType := dmrsType (dciDmrsRow dir a)
    dmrsSym := dciDmrsSym dir a
    rsv := (hlBank dir a).rsv }

/-- R160, step 4, first half: the lookup. -/
def dciLookup (dir : Bool) (a : ArgRegs) : Except Raised (Nat × Nat) :=
  match mcsLookup (hlBank dir a).mcsTable a.dci.format a.dci.ssType a.dci.rntiType a.dci.mcs with
  | none => .error { code := .ciMcs, step := 4 }
  | some e => .ok e

/-- R162: the Grant registers that a successful DCI2GRANT writes. -/
def dciGrant (dir : Bool) (a : ArgRegs) (start len eff avail : Nat) : GrantRegs :=
  { valid := true
    dir := dir
    format := a.dci.format
    ssType := a.dci.ssType
    rntiType := a.dci.rntiType
    rbStart := fieldOf 9 start
    rbLen := fieldOf 9 len
    mapType := tdraMap (dciTdraRow dir a)
    symS := tdraS (dciTdraRow dir a)
    symL := tdraL (dciTdraRow dir a)
    nlayers := fieldOf 3 (popcount (aptPorts (dciAptRow dir a)))
    ncg := aptNcg (dciAptRow dir a)
    ports := aptPorts (dciAptRow dir a)
    dmrsPtr := a.dci.dmrsPtr
    nre := fieldOf 20 eff
    nreAvail := fieldOf 20 avail
    prbMask := prbMaskOf start len }

/-- R162: the effective configuration that a successful DCI2GRANT writes. -/
def dciCfg (dir : Bool) (a : ArgRegs) : CfgRegs :=
  { valid := true
    mcsTable := (hlBank dir a).mcsTable
    dmrsType := dmrsType (dciDmrsRow dir a)
    dmrsSym := dciDmrsSym dir a
    rsv := (hlBank dir a).rsv }

/-- R162: TB[0] as a successful DCI2GRANT writes it. -/
def dciTb (a : ArgRegs) (qm r tbs nbits : Nat) : TbRegs :=
  { en := true, mcs := a.dci.mcs, qm := fieldOf 4 qm, r := fieldOf 12 r, tbs := fieldOf 32 tbs, rv := a.dci.rv,
    nbits := fieldOf 32 nbits }

/-- R156 to R162: `Dci2Grant(dir)`, all outputs together or the first failure (R165). -/
def dci2Grant (dir : Bool) (a : ArgRegs) : Except Raised Records := do
  guardLines 15 (dciPrelimLines dir a)
  let (start, len) ← dciFreq dir a
  guardLines 2 (dciTimeLines dir a)
  guardLines 3 (dciLayerLines dir a)
  let (qm, r) ← dciLookup dir a
  let (eff, avail) ← slotNre 4 (dciPattern dir a start len)
  let nu := popcount (aptPorts (dciAptRow dir a))
  let t ← tbsStep 5 eff r qm nu
  pure { gr := dciGrant dir a start len eff avail, tb0 := dciTb a qm r t (avail * qm * nu), tb1 := TbRegs.zero,
         cfg := dciCfg dir a }

/-- R163: after a failure GR_VALID and CFG_VALID are 0 and every other output register keeps its value. -/
def grantInvalidated (r : Records) : Records :=
  { r with gr := { r.gr with valid := false }, cfg := { r.cfg with valid := false } }

/-- R154, R155, R163: the shared body of the two variants. -/
def dci2GrantRule (dir : Bool) (s : State) : CmdEnd :=
  match dci2Grant dir s.args with
  | .ok r => .done { s with recs := r }
  | .error e => .raised e { s with recs := grantInvalidated s.recs }

/-- DCI2GRANT.DL, R154. -/
def execDci2GrantDl (s : State) : Host.Outcome State Fault Refusal := finish (dci2GrantRule false s)

/-- DCI2GRANT.UL, R155. -/
def execDci2GrantUl (s : State) : Host.Outcome State Fault Refusal := finish (dci2GrantRule true s)

end Sys2Proof.Machine
end

