-- ==== Sys2Proof/Machine/Pipe.lean ====
section
/-! DEFINITION. The Shared-Channel Data Pipe commands (file 42 of the spec, R220 to R255): PIPE_INIT.TX, PIPE_INIT.RX,
PIPE_SET_CARRIER, PIPE_FREE, ENCODE, DECODE. -/

namespace Sys2Proof.Machine

open Sys2Proof.Config

/-! ## Lifecycle (R221 to R224) -/

/-- R222: the checks of PIPE_INIT. -/
def pipeInitLines (s : State) : List (Bool × ErrCode) :=
  let pa := s.args.pa
  [ (s.pipe.state != .uninit, .iiState),
    (decide (pa.maxPrb.toNat < 1) || decide (hwMaxPrb < pa.maxPrb.toNat) || decide (pa.maxLayers.toNat < 1) ||
      decide (hwMaxLayers < pa.maxLayers.toNat) || decide (pa.maxCw.toNat < 1) || decide (hwMaxCw < pa.maxCw.toNat),
      .iiInitArgs) ]

/-- R222: the PIPE after a successful init. -/
def pipeReady (role : Role) (pa : PipeArgs) : PipeRegs :=
  { state := .ready, role := role, capPrb := pa.maxPrb, capLayers := pa.maxLayers, capCw := pa.maxCw,
    evmEn := pa.measureEvm, car := Carrier.zero }

/-- R222: the shared body of the two variants. The role is written before the allocation is tried, and stays when it
fails (PARTIAL). -/
def pipeInitRule (role : Role) (s : State) : CmdEnd :=
  orRaise (guardLines 0 (pipeInitLines s)) s fun _ =>
    let pa := s.args.pa
    if allocOk .pipe pa.maxPrb.toNat pa.maxLayers.toNat s then
      .done { allocAsked s with pipe := pipeReady role pa }
    else
      .raised { code := .ceAlloc, step := 0 }
        { allocAsked s with pipe := { s.pipe with role := role, state := .partialInit } }

/-- PIPE_INIT.TX, R222. -/
def execPipeInitTx (s : State) : Host.Outcome State Fault Refusal := finish (pipeInitRule .transmitter s)

/-- PIPE_INIT.RX, R222. -/
def execPipeInitRx (s : State) : Host.Outcome State Fault Refusal := finish (pipeInitRule .receiver s)

/-- R223: the checks of PIPE_SET_CARRIER. -/
def pipeSetCarrierLines (s : State) : List (Bool × ErrCode) :=
  [ (s.pipe.state != .ready && s.pipe.state != .carrierSet, .iiState),
    (!carrierValid s.args.car, .iiCarrier) ]

/-- R223: the PIPE with a new carrier latched; the capacity only grows. -/
def pipeWithCarrier (capPrb : BitVec 9) (s : State) : PipeRegs :=
  { s.pipe with capPrb := capPrb, car := s.args.car, state := .carrierSet }

/-- PIPE_SET_CARRIER, R223. It touches no memory space (R84): RXBUF keeps its elements (DEDUCED, unsafe, log 16). -/
def execPipeSetCarrier (s : State) : Host.Outcome State Fault Refusal :=
  finish <| orRaise (guardLines 0 (pipeSetCarrierLines s)) s fun _ =>
    if s.pipe.capPrb.toNat < s.args.car.nprb.toNat then
      if allocOk .pipe s.args.car.nprb.toNat s.pipe.capLayers.toNat s then
        .done { allocAsked s with pipe := pipeWithCarrier s.args.car.nprb s }
      else .raised { code := .ceAlloc, step := 0 } (allocAsked s)
    else .done { s with pipe := pipeWithCarrier s.pipe.capPrb s }

/-- PIPE_FREE, R224: allowed in every state. -/
def execPipeFree (s : State) : Host.Outcome State Fault Refusal := finish (.done { s with pipe := PipeRegs.zero })

/-! ## Checks shared by ENCODE, DECODE and PDSCH_PUT (R225, R229) -/

/-- R225: the lines of `CheckGrant(role)`, in order. Line 4 also decides PDSCH_PUT without a carrier in the SA: R270 and D29
name II_STATE there, R225, R311 and R362 name II_CARRIER_MISMATCH, and R276 takes the check from R225; line 4 is followed
(DEDUCED, unsafe, log 18). -/
def checkGrantLines (role : Role) (s : State) : List (Bool × ErrCode) :=
  let gr := s.recs.gr
  let cfg := s.recs.cfg
  let prbs := prbSet gr.prbMask
  let nu := gr.nlayers.toNat
  [ (s.pipe.state != .carrierSet, .iiState),
    (s.pipe.role != role, .iiRole),
    (!gr.valid || !cfg.valid, .iiGrantInvalid),
    (role == .transmitter && (s.sa.state == .noCarrier || packCar s.sa.car != packCar s.pipe.car), .iiCarrierMismatch),
    (prbs.any fun n => decide (s.pipe.capPrb.toNat ≤ n), .cePrb),
    (decide (s.pipe.capLayers.toNat < nu), .ceLayers),
    (decide (s.pipe.capCw.toNat < bit01 s.recs.tb0.en + bit01 s.recs.tb1.en), .ceCw),
    (decide (nPrb gr.prbMask = 0), .iiNoPrb),
    (prbs.any fun n => decide (s.pipe.car.nprb.toNat ≤ n), .iiPrbRange),
    (decide (gr.symL.toNat = 0) || decide (nsymb s.pipe.car.cp < gr.symS.toNat + gr.symL.toNat), .iiEmptySymbols),
    (decide (nu = 0) || popcount gr.ports != nu, .iiGrantField),
    (ncgIllegal cfg.dmrsType gr.ncg.toNat, .iiGrantField),
    ((setBits gr.ports).any (portIllegal cfg.dmrsType gr.ncg.toNat), .iiGrantField),
    (decide (s.pipe.car.nports.toNat < nu), .iiLayersPorts),
    (s.recs.tb1.en, .ucCw1),
    (s.args.en.precode, .ucPrecode) ]

/-- R225: `CheckGrant(role)`, its errors carrying the step of the caller. -/
def checkGrant (step : BitVec 4) (role : Role) (s : State) : Except Raised Unit := guardLines step (checkGrantLines role s)

/-- R229: G = NreAvail·Qm·nu, recomputed. -/
def codedBits (r : Records) : Nat := nreAvail (patternOf r) * r.tb0.qm.toNat * r.gr.nlayers.toNat

/-- R229: the lines of `CheckCodeword()`. -/
def checkCodewordLines (role : Role) (s : State) : List (Bool × ErrCode) :=
  let tb := s.recs.tb0
  let g := codedBits s.recs
  [ (!qmLegal tb.qm.toNat, .iiGrantField),
    (decide (tb.tbs.toNat = 0) || decide (maxTbsBits < tb.tbs.toNat), .iiPayloadLen),
    (role == .transmitter && s.args.en.payLen0 != tb.tbs, .iiPayloadLen),
    (decide (g < tb.nbits.toNat), .ceRe),
    (decide (tb.nbits.toNat < g) || decide (g = 0), .iiNbits) ]

/-- R229: `CheckCodeword()`. -/
def checkCodeword (step : BitVec 4) (role : Role) (s : State) : Except Raised Unit :=
  guardLines step (checkCodewordLines role s)

/-! ## The transmit data path (R232, R240 to R243), pure in the numerics -/

/-- R232: bs(i) = b(i) xor c(i). -/
def scramble (b c : List Bool) : List Bool := List.zipWith xor b c

/-- R240: the grid point of group i of a bit stream. -/
def groupPoint (qm : Nat) (bs : List Bool) (i : Nat) : Int × Int := gridPoint qm fun j => bs.getD (qm * i + j) false

/-- R240: M_symb = G / Qm modulated symbols. -/
def modulate (nm : Numerics) (qm : Nat) (bs : List Bool) : List Sample :=
  (List.range (bs.length / qm)).map fun i => nm.point qm (groupPoint qm bs i).1 (groupPoint qm bs i).2

/-- R241: x[lam](i) = d(nu·i + lam) for i < M_layer. -/
def layerOf (nm : Numerics) (d : List Sample) (nu lam m : Nat) : List Sample :=
  (List.range m).map fun i => d.getD (nu * i + lam) nm.zero

/-- R242, R243: the writes of layer lam, to antenna lam at the positions P. -/
def layerWrites (nm : Numerics) (pos : List (Nat × Nat)) (d : List Sample) (nu lam : Nat) : List SlotWrite :=
  List.zipWith (fun lk v => { a := lam, l := lk.1, k := lk.2, v := v }) pos (layerOf nm d nu lam pos.length)

/-- R232, R240 to R243: the writes of ENCODE, from coded bits and scrambling sequence. -/
def encodeWrites (nm : Numerics) (r : Records) (b c : List Bool) : List SlotWrite :=
  let nu := r.gr.nlayers.toNat
  let d := modulate nm r.tb0.qm.toNat (scramble b c)
  (List.range nu).flatMap fun lam => layerWrites nm (posList (patternOf r)) d nu lam

/-! ## ENCODE (R230) -/

/-- R331: the shape a bit-sequence answer must have. -/
def shapedBits (n : Nat) (ans : Option (List Bool)) : Option (List Bool) :=
  ans.bind fun b => if b.length = n then some b else none

/-- R230, R231: the payload bits a, of TBS length. -/
def payloadBits (s : State) : List Bool := bitsFrom (s.mem.payload[0]) s.env.draws s.recs.tb0.tbs.toNat

/-- R231: the state after the payload was read and Fec.encode was called. -/
def encodeAfterFec (s : State) : State :=
  fecEncodeCalled (payloadBits s) (codedBits s.recs) s.recs.tb0.qm.toNat s.recs.gr.nlayers.toNat s.recs.tb0
    (advanceDraws s.recs.tb0.tbs.toNat s)

/-- R231: the coded bits, if Fec.encode answers G of them. -/
def encodeCodedBits (s : State) : Option (List Bool) :=
  shapedBits (codedBits s.recs) (fecEncodeAnswer (advanceDraws s.recs.tb0.tbs.toNat s))

/-- R232: the scrambling sequence, if Seq.gen answers G bits. -/
def encodeSequence (s : State) : Option (List Bool) :=
  shapedBits (codedBits s.recs) (seqGenAnswer 0 (codedBits s.recs) (encodeAfterFec s))

/-- R232: the state after Seq.gen was called. -/
def encodeAfterSeq (s : State) : State := seqGenCalled 0 (codedBits s.recs) (encodeAfterFec s)

/-- R230 to R243: ENCODE after its checks, for an enabled codeword. -/
def encodeBody (step : BitVec 4) (s : State) : CmdEnd :=
  match encodeCodedBits s with
  | none => .raised { code := .ciCollab, step := step } (encodeAfterFec s)
  | some b =>
    match encodeSequence s with
    | none => .raised { code := .ciCollab, step := step } (encodeAfterSeq s)
    | some c => .done (putSlot (encodeWrites num s.recs b c) (encodeAfterSeq s))

/-- R230: the whole of ENCODE, its errors carrying the given step (0 when issued by itself, 2 inside PDSCH_PUT). -/
def encodeRule (step : BitVec 4) (s : State) : CmdEnd :=
  orRaise (checkGrant step .transmitter s) s fun _ =>
    if s.recs.tb0.en then orRaise (checkCodeword step .transmitter s) s fun _ => encodeBody step s
    else .done s

/-- ENCODE, R230. -/
def execEncode (s : State) : Host.Outcome State Fault Refusal := finish (encodeRule 0 s)

/-! ## DECODE (R250 to R254) -/

/-- R251: the places of antenna a at the positions P in RXBUF, in the geometry of PIPE_CAR (R73). -/
def rxPlaces (car : Carrier) (pos : List (Nat × Nat)) (a : Nat) : List (Nat × Nat) :=
  pos.map fun lk => (a, gridAddr car.nprb.toNat lk.1 lk.2)

/-- R251: r[a](i) for 0 ≤ a < np; undefined elements are fresh draws. -/
def extracted (s : State) : List (List Sample) :=
  let pos := posList (patternOf s.recs)
  (List.range s.pipe.car.nports.toNat).map fun a =>
    samplesAt s.mem.rxbuf (s.env.draws + a * pos.length) (rxPlaces s.pipe.car pos a)

/-- R251, R252: the state after the extraction and the call of Chest.equalize. -/
def decodeAfterChest (s : State) : State :=
  let pos := posList (patternOf s.recs)
  equalizeCalled (extracted s) s.pipe.car.nports.toNat s.recs.gr.nlayers.toNat pos
    (advanceDraws (s.pipe.car.nports.toNat * pos.length) s)

/-- R252: the equalised layers, if the answer is nu sequences of length(P) Samples. -/
def decodeLayers (s : State) : Option (List (List Sample)) :=
  let m := (posList (patternOf s.recs)).length
  (equalizeAnswer (advanceDraws (s.pipe.car.nports.toNat * m) s)).bind fun xh =>
    if xh.length = s.recs.gr.nlayers.toNat ∧ xh.all (fun x => x.length == m) then some xh else none

/-- R252: dh(nu·i + lam) = xh[lam](i), the inverse of the layer mapping. -/
def layersToStream (nm : Numerics) (xh : List (List Sample)) (nu m : Nat) : List Sample :=
  (List.range (nu * m)).map fun j => (xh.getD (j % nu) []).getD (j / nu) nm.zero

/-- R253: the G soft bits of the symbols. -/
def softBits (nm : Numerics) (qm : Nat) (dh : List Sample) : List Llr :=
  dh.flatMap fun d => (List.range qm).map fun j => nm.softdemod qm d j

/-- R253: descrambling, a sign flip where c(i) = 1. -/
def descramble (nm : Numerics) (llr : List Llr) (c : List Bool) : List Llr :=
  List.zipWith (fun x b => if b then nm.neg x else x) llr c

/-- R253: the sequence, if Seq.gen answers G bits. -/
def decodeSequence (s : State) : Option (List Bool) :=
  shapedBits (codedBits s.recs) (seqGenAnswer 0 (codedBits s.recs) (decodeAfterChest s))

/-- R253: the state after Seq.gen was called. -/
def decodeAfterSeq (s : State) : State := seqGenCalled 0 (codedBits s.recs) (decodeAfterChest s)

/-- R252, R253: dh from the equalised layers. -/
def decodeStream (s : State) (xh : List (List Sample)) : List Sample :=
  layersToStream num xh s.recs.gr.nlayers.toNat (posList (patternOf s.recs)).length

/-- R253: the descrambled soft bits handed to the decoder. -/
def decodeSoft (s : State) (xh : List (List Sample)) (c : List Bool) : List Llr :=
  descramble num (softBits num s.recs.tb0.qm.toNat (decodeStream s xh)) c

/-- R254: the state after Fec.decode was called. -/
def decodeAfterFec (s : State) (xh : List (List Sample)) (c : List Bool) : State :=
  fecDecodeCalled (decodeSoft s xh c) (codedBits s.recs) s.recs.tb0.qm.toNat s.recs.gr.nlayers.toNat s.recs.tb0
    (decodeAfterSeq s)

/-- R254: the payload bits and the CRC result, if Fec.decode answers TBS bits. -/
def decodePayload (s : State) : Option (List Bool × Bool) :=
  (fecDecodeAnswer (decodeAfterSeq s)).bind fun r => if r.1.length = s.recs.tb0.tbs.toNat then some r else none

/-- R254, commit: the result registers. -/
def decodeResult (s : State) (xh : List (List Sample)) (ok : Bool) : RxRegs :=
  { cw0 := { ok := ok, valid := true,
             evm := if s.pipe.evmEn then num.evm s.recs.tb0.qm.toNat (decodeStream s xh) else 0,
             len := s.recs.tb0.tbs }
    cw1 := RxCw.zero
    evmValid := s.pipe.evmEn
    tctx := s.args.en.tctx }

/-- R254, commit with no codeword. -/
def decodeNoCodeword (s : State) : RxRegs := { cw0 := RxCw.zero, cw1 := RxCw.zero, evmValid := false, tctx := s.args.en.tctx }

/-- R72, R254: bits 0 .. length−1 of a bit array take the given values; later bits are left unchanged. -/
def storeBits (m : Mem Bool) (bits : List Bool) : Mem Bool := memWriteAll m (bits.zipIdx.map fun p => (p.2, p.1))

/-- R254: RXPAYLOAD[0] and RX_* are written together. -/
def decodeCommit (bits : List Bool) (rx : RxRegs) (s : State) : State :=
  { s with rx := rx, mem := { s.mem with rxpayload := s.mem.rxpayload.set 0 (storeBits (s.mem.rxpayload[0]) bits) } }

/-- R250 to R254: DECODE after its checks, for an enabled codeword. -/
def decodeBody (s : State) : CmdEnd :=
  match decodeLayers s with
  | none => .raised { code := .ciCollab, step := 0 } (decodeAfterChest s)
  | some xh =>
    match decodeSequence s with
    | none => .raised { code := .ciCollab, step := 0 } (decodeAfterSeq s)
    | some c =>
      match decodePayload s with
      | none => .raised { code := .ciCollab, step := 0 } (decodeAfterFec s xh c)
      | some (bits, ok) => .done (decodeCommit bits (decodeResult s xh ok) (decodeAfterFec s xh c))

/-- R250: DECODE. -/
def decodeRule (s : State) : CmdEnd :=
  orRaise (checkGrant 0 .receiver s) s fun _ =>
    if s.recs.tb0.en then orRaise (checkCodeword 0 .receiver s) s fun _ => decodeBody s
    else .done { s with rx := decodeNoCodeword s }

/-- DECODE, R250. -/
def execDecode (s : State) : Host.Outcome State Fault Refusal := finish (decodeRule s)

end Sys2Proof.Machine
end

