-- ==== Sys2Proof/Machine/Sa.lean ====
section
/-! DEFINITION. The Slot Assembler commands (file 43 of the spec, R270 to R283): SA_SET_CARRIER, SA_SET_CORESET, BASE_ZERO,
PDCCH_PUT, PDSCH_PUT, GEN_SIGNAL. -/

namespace Sys2Proof.Machine

open Sys2Proof.Config

/-! ## Configuration (R271, R272) -/

/-- R271: the larger of two register values. -/
def maxBits {n : Nat} (a b : BitVec n) : BitVec n := if a.toNat < b.toNat then b else a

/-- R271: the SA with a new carrier latched and the given capacities; the latched CORESET is kept. -/
def saWithCarrier (capPrb : BitVec 9) (capPorts : BitVec 3) (s : State) : SaRegs :=
  { s.sa with capPrb := capPrb, capPorts := capPorts, car := s.args.car, state := .carrierSet }

/-- SA_SET_CARRIER, R271. -/
def execSaSetCarrier (s : State) : Host.Outcome State Fault Refusal :=
  finish <| orRaise (guardLines 0 [(!carrierValid s.args.car, .iiCarrier)]) s fun _ =>
    let np := maxBits s.args.car.nprb s.sa.capPrb
    let na := maxBits s.args.car.nports s.sa.capPorts
    if s.sa.capPrb.toNat < np.toNat ∨ s.sa.capPorts.toNat < na.toNat then
      if allocOk .sa np.toNat na.toNat s then
        .done (slotUndefined { allocAsked s with sa := saWithCarrier np na s })
      else .raised { code := .ceAlloc, step := 0 } (allocAsked s)
    else .done (slotUndefined { s with sa := saWithCarrier s.sa.capPrb s.sa.capPorts s })

/-- R272: CS_DUR outside 1..3, or an empty bitmap. -/
def coresetIllegal (c : Coreset) : Bool :=
  decide (c.dur.toNat < 1) || decide (3 < c.dur.toNat) || (c.freqLo == 0 && c.freqHi == 0)

/-- SA_SET_CORESET, R272: allowed in either SA state. -/
def execSaSetCoreset (s : State) : Host.Outcome State Fault Refusal :=
  finish <| orRaise (guardLines 0 [(coresetIllegal s.args.cs, .iiCoreset)]) s fun _ =>
    .done { s with sa := { s.sa with coreset := s.args.cs, csValid := true } }

/-! ## BASE_ZERO (R273) -/

/-- R273: the writes of BASE_ZERO for one antenna, symbol by symbol, subcarrier upward. -/
def zeroWrites (nm : Numerics) (car : Carrier) (a : Nat) : List SlotWrite :=
  (List.range (nsymb car.cp)).flatMap fun l =>
    (List.range (12 * car.nprb.toNat)).map fun k => { a := a, l := l, k := k, v := nm.zero }

/-- R273: the writes of BASE_ZERO. -/
def baseZeroWrites (nm : Numerics) (car : Carrier) : List SlotWrite :=
  (List.range car.nports.toNat).flatMap (zeroWrites nm car)

/-- BASE_ZERO, R273. -/
def execBaseZero (s : State) : Host.Outcome State Fault Refusal :=
  finish <| orRaise (guardLines 0 [(s.sa.state == .noCarrier, .iiState)]) s fun _ =>
    .done (putSlot (baseZeroWrites num s.sa.car) s)

/-! ## PDCCH_PUT (R274, R275) -/

/-- R274: the checks before step 1. -/
def pdcchLines (s : State) : List (Bool × ErrCode) :=
  [ (s.sa.state == .noCarrier || !s.sa.csValid, .iiState),
    (decide (128 < s.args.pd.msgLen.toNat), .iiPayloadLen) ]

/-- R274: a list of positions and values as writes on antenna 0. -/
def pdcchWrites (w : List (Nat × Nat × Sample)) : List SlotWrite :=
  w.map fun e => { a := 0, l := e.1, k := e.2.1, v := e.2.2 }

/-- R274: every position of a list lies in the control region. -/
def allInCoreset (s : State) (w : List (Nat × Nat × Sample)) : Bool :=
  w.all fun e => inCoreset s.sa.coreset s.sa.car e.1 e.2.1

/-- R274: one step of PDCCH_PUT. `ans` is the collaborator's answer, s the state after the call; the whole list is checked
before its first write. -/
def pdcchPlace (step : BitVec 4) (ans : Option (List (Nat × Nat × Sample))) (s : State) : CmdEnd :=
  match ans with
  | none => .raised { code := .ciCollab, step := step } s
  | some w =>
    if allInCoreset s w then .done (putSlot (pdcchWrites w) s) else .raised { code := .iiPdcchLoc, step := step } s

/-- R274: the second step runs only after the first succeeded. -/
def andThen (r : CmdEnd) (k : State → CmdEnd) : CmdEnd :=
  match r with
  | .done s => k s
  | .raised e s => .raised e s

/-- R274, step 1: the reference signal of the control channel. -/
def pdcchStep1 (s : State) : CmdEnd := pdcchPlace 1 (pdcchDmrsAnswer s) (pdcchDmrsCalled s)

/-- R274, step 2: the payload of the control channel. -/
def pdcchStep2 (s : State) : CmdEnd := pdcchPlace 2 (pdcchEncodeAnswer s) (pdcchEncodeCalled s)

/-- PDCCH_PUT, R274. -/
def execPdcchPut (s : State) : Host.Outcome State Fault Refusal :=
  finish <| orRaise (guardLines 0 (pdcchLines s)) s fun _ => andThen (pdcchStep1 s) pdcchStep2

/-! ## PDSCH_PUT (R276, R277) -/

/-- R277: the DMRS positions of the grant in the registers. -/
def grantDmrs (s : State) : List (Nat × Nat × Nat × Nat) := dmrsPositions (patternOf s.recs) s.recs.gr.ports

/-- R277: the state after Dmrs.vals was called. -/
def dmrsCalled (s : State) : State := dmrsValsCalled ((grantDmrs s).map fun q => q.2) s

/-- R277: the values, if there is one per position. -/
def dmrsAnswer (s : State) : Option (List Sample) :=
  (dmrsValsAnswer s).bind fun v => if v.length = (grantDmrs s).length then some v else none

/-- R277: layer j's reference signal goes to antenna j. -/
def dmrsWrites (q : List (Nat × Nat × Nat × Nat)) (v : List Sample) : List SlotWrite :=
  List.zipWith (fun e x => { a := e.1, l := e.2.2.1, k := e.2.2.2, v := x }) q v

/-- R276, step 1: CheckGrant and the DMRS placement. -/
def pdschStep1 (s : State) : CmdEnd :=
  orRaise (checkGrant 1 .transmitter s) s fun _ =>
    match dmrsAnswer s with
    | none => .raised { code := .ciCollab, step := 1 } (dmrsCalled s)
    | some v => .done (putSlot (dmrsWrites (grantDmrs s) v) (dmrsCalled s))

/-- PDSCH_PUT, R276: step 2 is the whole of ENCODE. -/
def execPdschPut (s : State) : Host.Outcome State Fault Refusal := finish (andThen (pdschStep1 s) (encodeRule 2))

/-! ## GEN_SIGNAL (R279, R280) -/

/-- R279: the places of antenna a's grid in SLOTBUF, row by row. -/
def gridPlaces (car : Carrier) (a : Nat) : List (Nat × Nat) :=
  (List.range (nsymb car.cp)).flatMap fun l =>
    (List.range (12 * car.nprb.toNat)).map fun k => (a, gridAddr car.nprb.toNat l k)

/-- R279: grid[l][k] = Num.mul(SLOT[a][l][k], PHASE[l]); an undefined element is a fresh draw. -/
def gridOf (nm : Numerics) (phase : Nat → Phase) (a : Nat) (s : State) : List (List Sample) :=
  let row := 12 * s.sa.car.nprb.toNat
  let xs := samplesAt s.mem.slotbuf s.env.draws (gridPlaces s.sa.car a)
  (List.range (nsymb s.sa.car.cp)).map fun l => ((xs.drop (l * row)).take row).map fun x => nm.mul x (phase l)

/-- R279: antenna a has been handed to the transform. -/
def transformed (a : Nat) (s : State) : State :=
  transformCalled a (gridOf num phase a s) (advanceDraws (gridSize s.sa.car) s)

/-- R279: the answer of the transform of antenna a. -/
def transformOk (s : State) : Bool := transformAnswer (advanceDraws (gridSize s.sa.car) s)

/-- R279: the antennas of a list, in order, until a transform fails. -/
def genAntennas : List Nat → State → CmdEnd
  | [], s => .done (slotUndefined s)
  | a :: rest, s =>
    if transformOk s then genAntennas rest (transformed a s)
    else .raised { code := .ciCollab, step := fieldOf 4 (a + 1) } (slotUndefined (transformed a s))

/-- GEN_SIGNAL, R279. -/
def execGenSignal (s : State) : Host.Outcome State Fault Refusal :=
  finish <| orRaise (guardLines 0 [(s.sa.state == .noCarrier, .iiState)]) s fun _ =>
    genAntennas (List.range s.sa.car.nports.toNat) s

end Sys2Proof.Machine
end

