-- ==== Sys2Proof/Machine/Dispatch.lean ====
section
/-! DEFINITION. One arm per command (R104). exec runs the command's rule and completes it (R318, execute and complete); the
issue phase has been done by the CMD write. -/

namespace Sys2Proof.Machine

open Sys2Proof

def exec (i : Instr) (s : State) : Host.Outcome State Fault Refusal :=
  match i with
  | .rateFromMcs => Sys2Proof.Machine.execRateFromMcs s
  | .modFromMcs => Sys2Proof.Machine.execModFromMcs s
  | .slotNre => Sys2Proof.Machine.execSlotNre s
  | .tbs => Sys2Proof.Machine.execTbs s
  | .fillTb0 => Sys2Proof.Machine.execFillTb0 s
  | .fillTb1 => Sys2Proof.Machine.execFillTb1 s
  | .dci2GrantDl => Sys2Proof.Machine.execDci2GrantDl s
  | .dci2GrantUl => Sys2Proof.Machine.execDci2GrantUl s
  | .pipeInitTx => Sys2Proof.Machine.execPipeInitTx s
  | .pipeInitRx => Sys2Proof.Machine.execPipeInitRx s
  | .pipeSetCarrier => Sys2Proof.Machine.execPipeSetCarrier s
  | .pipeFree => Sys2Proof.Machine.execPipeFree s
  | .encode => Sys2Proof.Machine.execEncode s
  | .decode => Sys2Proof.Machine.execDecode s
  | .saSetCarrier => Sys2Proof.Machine.execSaSetCarrier s
  | .saSetCoreset => Sys2Proof.Machine.execSaSetCoreset s
  | .baseZero => Sys2Proof.Machine.execBaseZero s
  | .pdcchPut => Sys2Proof.Machine.execPdcchPut s
  | .pdschPut => Sys2Proof.Machine.execPdschPut s
  | .genSignal => Sys2Proof.Machine.execGenSignal s

end Sys2Proof.Machine
end

