-- ==== Sys2Proof/Machine/HostPort.lean ====
section
/-! DEFINITION. The host's side: the register port and its address map (R21, R69), the bulk port (R75), access while a
command is in flight (R366), the fetch of the word in flight (R22) and reset (R350). -/

namespace Sys2Proof.Machine

open Sys2Proof.Config

/-! ## The register port (R21, R69) -/

/-- One register of the port: its width, how it is read, and how the host writes it (none: access R, a host write is
ignored). Bits above the width are reserved: they read as 0 and a write to them is ignored (R21). -/
structure Reg where
  /-- Number of bits that exist. -/
  width : Nat
  /-- The value read. -/
  get : State → BitVec width
  /-- The host's write. -/
  set : Option (BitVec width → State → State)

/-- A read-only register. -/
def roReg {w : Nat} (get : State → BitVec w) : Reg := { width := w, get := get, set := none }

/-- A read-write register among the argument and configuration registers. -/
def argReg {w : Nat} (get : ArgRegs → BitVec w) (set : BitVec w → ArgRegs → ArgRegs) : Reg :=
  { width := w, get := fun s => get s.args, set := some fun v s => { s with args := set v s.args } }

/-- A read-write register among Grant, TB and CFG. -/
def recReg {w : Nat} (get : Records → BitVec w) (set : BitVec w → Records → Records) : Reg :=
  { width := w, get := fun s => get s.recs, set := some fun v s => { s with recs := set v s.recs } }

/-- A one-bit field from a register bit. -/
def flagOf (v : BitVec 1) : Bool := v.getLsbD 0

/-- R22 to R24, addresses 0x000 to 0x003. The write of CMD is the port's own (`hostWrite`). -/
def systemReg : Nat → Option Reg
  | 0x000 => some <| roReg fun s => s.sys.cmd
  | 0x001 => some <| roReg fun s => statusWord s.sys
  | 0x002 => some <| roReg fun s => errinfoWord s.sys
  | 0x003 => some <| roReg fun s => s.sys.cmdcnt
  | _ => none

/-- R26 and R27, addresses 0x008 to 0x013. -/
def carrierReg : Nat → Option Reg
  | 0x008 => some <| argReg (fun r => r.car.nprb) (fun v r => { r with car := { r.car with nprb := v } })
  | 0x009 => some <| argReg (fun r => r.car.mu) (fun v r => { r with car := { r.car with mu := v } })
  | 0x00A => some <| argReg (fun r => BitVec.ofBool r.car.cp) (fun v r => { r with car := { r.car with cp := flagOf v } })
  | 0x00B => some <| argReg (fun r => r.car.nports) (fun v r => { r with car := { r.car with nports := v } })
  | 0x010 => some <| argReg (fun r => r.pa.maxPrb) (fun v r => { r with pa := { r.pa with maxPrb := v } })
  | 0x011 => some <| argReg (fun r => r.pa.maxLayers) (fun v r => { r with pa := { r.pa with maxLayers := v } })
  | 0x012 => some <| argReg (fun r => r.pa.maxCw) (fun v r => { r with pa := { r.pa with maxCw := v } })
  | 0x013 => some <| argReg (fun r => BitVec.ofBool r.pa.measureEvm) (fun v r => { r with pa := { r.pa with measureEvm := flagOf v } })
  | _ => none

/-- R28 and R29, addresses 0x018 to 0x024. -/
def unitReg : Nat → Option Reg
  | 0x018 => some <| roReg fun s => pipeStateCode s.pipe.state
  | 0x019 => some <| roReg fun s => roleCode s.pipe.role
  | 0x01A => some <| roReg fun s => s.pipe.capPrb
  | 0x01B => some <| roReg fun s => s.pipe.capLayers
  | 0x01C => some <| roReg fun s => s.pipe.capCw
  | 0x01D => some <| roReg fun s => BitVec.ofBool s.pipe.evmEn
  | 0x01E => some <| roReg fun s => packCar s.pipe.car
  | 0x020 => some <| roReg fun s => saStateCode s.sa.state
  | 0x021 => some <| roReg fun s => s.sa.capPrb
  | 0x022 => some <| roReg fun s => s.sa.capPorts
  | 0x023 => some <| roReg fun s => packCar s.sa.car
  | 0x024 => some <| roReg fun s => BitVec.ofBool s.sa.csValid
  | _ => none

/-- R30, addresses 0x028 to 0x02C. -/
def coresetReg : Nat → Option Reg
  | 0x028 => some <| argReg (fun r => r.cs.freqLo) (fun v r => { r with cs := { r.cs with freqLo := v } })
  | 0x029 => some <| argReg (fun r => r.cs.freqHi) (fun v r => { r with cs := { r.cs with freqHi := v } })
  | 0x02A => some <| argReg (fun r => r.cs.dur) (fun v r => { r with cs := { r.cs with dur := v } })
  | 0x02B => some <| argReg (fun r => r.cs.id) (fun v r => { r with cs := { r.cs with id := v } })
  | 0x02C => some <| argReg (fun r => r.cs.opaqueWord) (fun v r => { r with cs := { r.cs with opaqueWord := v } })
  | _ => none

/-- R38, addresses 0x040 to 0x048. -/
def dciReg : Nat → Option Reg
  | 0x040 => some <| argReg (fun r => r.dci.format) (fun v r => { r with dci := { r.dci with format := v } })
  | 0x041 => some <| argReg (fun r => r.dci.ssType) (fun v r => { r with dci := { r.dci with ssType := v } })
  | 0x042 => some <| argReg (fun r => r.dci.rntiType) (fun v r => { r with dci := { r.dci with rntiType := v } })
  | 0x043 => some <| argReg (fun r => r.dci.fda) (fun v r => { r with dci := { r.dci with fda := v } })
  | 0x044 => some <| argReg (fun r => r.dci.tda) (fun v r => { r with dci := { r.dci with tda := v } })
  | 0x045 => some <| argReg (fun r => r.dci.mcs) (fun v r => { r with dci := { r.dci with mcs := v } })
  | 0x046 => some <| argReg (fun r => r.dci.rv) (fun v r => { r with dci := { r.dci with rv := v } })
  | 0x047 => some <| argReg (fun r => r.dci.ports) (fun v r => { r with dci := { r.dci with ports := v } })
  | 0x048 => some <| argReg (fun r => r.dci.dmrsPtr) (fun v r => { r with dci := { r.dci with dmrsPtr := v } })
  | _ => none

/-- R39, addresses 0x050 to 0x059. -/
def opReg : Nat → Option Reg
  | 0x050 => some <| argReg (fun r => r.op.table) (fun v r => { r with op := { r.op with table := v } })
  | 0x051 => some <| argReg (fun r => r.op.format) (fun v r => { r with op := { r.op with format := v } })
  | 0x052 => some <| argReg (fun r => r.op.ssType) (fun v r => { r with op := { r.op with ssType := v } })
  | 0x053 => some <| argReg (fun r => r.op.rntiType) (fun v r => { r with op := { r.op with rntiType := v } })
  | 0x054 => some <| argReg (fun r => r.op.mcs) (fun v r => { r with op := { r.op with mcs := v } })
  | 0x055 => some <| argReg (fun r => r.op.nre) (fun v r => { r with op := { r.op with nre := v } })
  | 0x056 => some <| argReg (fun r => r.op.sc) (fun v r => { r with op := { r.op with sc := v } })
  | 0x057 => some <| argReg (fun r => r.op.r) (fun v r => { r with op := { r.op with r := v } })
  | 0x058 => some <| argReg (fun r => r.op.qm) (fun v r => { r with op := { r.op with qm := v } })
  | 0x059 => some <| argReg (fun r => r.op.nlayers) (fun v r => { r with op := { r.op with nlayers := v } })
  | _ => none

/-- R44, addresses 0x05B to 0x05F. -/
def resReg : Nat → Option Reg
  | 0x05B => some <| roReg fun s => s.res.nreAvail
  | 0x05C => some <| roReg fun s => rateWord s.res
  | 0x05D => some <| roReg fun s => s.res.qm
  | 0x05E => some <| roReg fun s => s.res.nre
  | 0x05F => some <| roReg fun s => s.res.tbs
  | _ => none

/-- R40, addresses 0x060 to 0x06F. -/
def grantReg : Nat → Option Reg
  | 0x060 => some <| recReg (fun r => BitVec.ofBool r.gr.valid) (fun v r => { r with gr := { r.gr with valid := flagOf v } })
  | 0x061 => some <| recReg (fun r => BitVec.ofBool r.gr.dir) (fun v r => { r with gr := { r.gr with dir := flagOf v } })
  | 0x062 => some <| recReg (fun r => r.gr.format) (fun v r => { r with gr := { r.gr with format := v } })
  | 0x063 => some <| recReg (fun r => r.gr.ssType) (fun v r => { r with gr := { r.gr with ssType := v } })
  | 0x064 => some <| recReg (fun r => r.gr.rntiType) (fun v r => { r with gr := { r.gr with rntiType := v } })
  | 0x065 => some <| recReg (fun r => r.gr.rbStart) (fun v r => { r with gr := { r.gr with rbStart := v } })
  | 0x066 => some <| recReg (fun r => r.gr.rbLen) (fun v r => { r with gr := { r.gr with rbLen := v } })
  | 0x067 => some <| recReg (fun r => BitVec.ofBool r.gr.mapType) (fun v r => { r with gr := { r.gr with mapType := flagOf v } })
  | 0x068 => some <| recReg (fun r => r.gr.symS) (fun v r => { r with gr := { r.gr with symS := v } })
  | 0x069 => some <| recReg (fun r => r.gr.symL) (fun v r => { r with gr := { r.gr with symL := v } })
  | 0x06A => some <| recReg (fun r => r.gr.nlayers) (fun v r => { r with gr := { r.gr with nlayers := v } })
  | 0x06B => some <| recReg (fun r => r.gr.ncg) (fun v r => { r with gr := { r.gr with ncg := v } })
  | 0x06C => some <| recReg (fun r => r.gr.ports) (fun v r => { r with gr := { r.gr with ports := v } })
  | 0x06D => some <| recReg (fun r => r.gr.dmrsPtr) (fun v r => { r with gr := { r.gr with dmrsPtr := v } })
  | 0x06E => some <| recReg (fun r => r.gr.nre) (fun v r => { r with gr := { r.gr with nre := v } })
  | 0x06F => some <| recReg (fun r => r.gr.nreAvail) (fun v r => { r with gr := { r.gr with nreAvail := v } })
  | _ => none

/-- R42: TB[0] at 0x080, TB[1] at 0x088; offset 7 is reserved and holds nothing. -/
def tbReg : Nat → Option Reg
  | 0x080 => some <| recReg (fun r => BitVec.ofBool r.tb0.en) (fun v r => { r with tb0 := { r.tb0 with en := flagOf v } })
  | 0x081 => some <| recReg (fun r => r.tb0.mcs) (fun v r => { r with tb0 := { r.tb0 with mcs := v } })
  | 0x082 => some <| recReg (fun r => r.tb0.qm) (fun v r => { r with tb0 := { r.tb0 with qm := v } })
  | 0x083 => some <| recReg (fun r => r.tb0.r) (fun v r => { r with tb0 := { r.tb0 with r := v } })
  | 0x084 => some <| recReg (fun r => r.tb0.tbs) (fun v r => { r with tb0 := { r.tb0 with tbs := v } })
  | 0x085 => some <| recReg (fun r => r.tb0.rv) (fun v r => { r with tb0 := { r.tb0 with rv := v } })
  | 0x086 => some <| recReg (fun r => r.tb0.nbits) (fun v r => { r with tb0 := { r.tb0 with nbits := v } })
  | 0x088 => some <| recReg (fun r => BitVec.ofBool r.tb1.en) (fun v r => { r with tb1 := { r.tb1 with en := flagOf v } })
  | 0x089 => some <| recReg (fun r => r.tb1.mcs) (fun v r => { r with tb1 := { r.tb1 with mcs := v } })
  | 0x08A => some <| recReg (fun r => r.tb1.qm) (fun v r => { r with tb1 := { r.tb1 with qm := v } })
  | 0x08B => some <| recReg (fun r => r.tb1.r) (fun v r => { r with tb1 := { r.tb1 with r := v } })
  | 0x08C => some <| recReg (fun r => r.tb1.tbs) (fun v r => { r with tb1 := { r.tb1 with tbs := v } })
  | 0x08D => some <| recReg (fun r => r.tb1.rv) (fun v r => { r with tb1 := { r.tb1 with rv := v } })
  | 0x08E => some <| recReg (fun r => r.tb1.nbits) (fun v r => { r with tb1 := { r.tb1 with nbits := v } })
  | _ => none

/-- R43, addresses 0x0A0 to 0x0A3. -/
def cfgReg : Nat → Option Reg
  | 0x0A0 => some <| recReg (fun r => BitVec.ofBool r.cfg.valid) (fun v r => { r with cfg := { r.cfg with valid := flagOf v } })
  | 0x0A1 => some <| recReg (fun r => r.cfg.mcsTable) (fun v r => { r with cfg := { r.cfg with mcsTable := v } })
  | 0x0A2 => some <| recReg (fun r => BitVec.ofBool r.cfg.dmrsType) (fun v r => { r with cfg := { r.cfg with dmrsType := flagOf v } })
  | 0x0A3 => some <| recReg (fun r => r.cfg.dmrsSym) (fun v r => { r with cfg := { r.cfg with dmrsSym := v } })
  | _ => none

/-- R45 and R46, addresses 0x0C0 to 0x0CA. -/
def callReg : Nat → Option Reg
  | 0x0C0 => some <| argReg (fun r => r.en.cellId) (fun v r => { r with en := { r.en with cellId := v } })
  | 0x0C1 => some <| argReg (fun r => r.en.rnti) (fun v r => { r with en := { r.en with rnti := v } })
  | 0x0C2 => some <| argReg (fun r => r.en.slot) (fun v r => { r with en := { r.en with slot := v } })
  | 0x0C3 => some <| argReg (fun r => BitVec.ofBool r.en.precode) (fun v r => { r with en := { r.en with precode := flagOf v } })
  | 0x0C4 => some <| argReg (fun r => r.en.payLen0) (fun v r => { r with en := { r.en with payLen0 := v } })
  | 0x0C5 => some <| argReg (fun r => r.en.payLen1) (fun v r => { r with en := { r.en with payLen1 := v } })
  | 0x0C6 => some <| argReg (fun r => r.en.tctx) (fun v r => { r with en := { r.en with tctx := v } })
  | 0x0C8 => some <| argReg (fun r => r.pd.aggr) (fun v r => { r with pd := { r.pd with aggr := v } })
  | 0x0C9 => some <| argReg (fun r => r.pd.ncce) (fun v r => { r with pd := { r.pd with ncce := v } })
  | 0x0CA => some <| argReg (fun r => r.pd.msgLen) (fun v r => { r with pd := { r.pd with msgLen := v } })
  | _ => none

/-- R49, addresses 0x0D0 to 0x0D7. -/
def rxReg : Nat → Option Reg
  | 0x0D0 => some <| roReg fun s => crcWord s.rx.cw0
  | 0x0D1 => some <| roReg fun s => crcWord s.rx.cw1
  | 0x0D2 => some <| roReg fun s => s.rx.cw0.evm
  | 0x0D3 => some <| roReg fun s => s.rx.cw1.evm
  | 0x0D4 => some <| roReg fun s => BitVec.ofBool s.rx.evmValid
  | 0x0D5 => some <| roReg fun s => s.rx.tctx
  | 0x0D6 => some <| roReg fun s => s.rx.cw0.len
  | 0x0D7 => some <| roReg fun s => s.rx.cw1.len
  | _ => none

/-- R41: GR_PRB_MASK[w]. -/
def maskReg (w : Nat) : Reg :=
  recReg (fun r => rowAt r.gr.prbMask w)
    (fun v r => { r with gr := { r.gr with prbMask := r.gr.prbMask.setIfInBounds w v } })

/-- R43: CFG_RSV[l]. -/
def cfgRsvReg (l : Nat) : Reg :=
  recReg (fun r => rowAt r.cfg.rsv l) (fun v r => { r with cfg := { r.cfg with rsv := r.cfg.rsv.setIfInBounds l v } })

/-- R46: PD_MSG[w]. -/
def pdMsgReg (w : Nat) : Reg :=
  argReg (fun r => rowAt r.pd.msg w) (fun v r => { r with pd := { r.pd with msg := r.pd.msg.setIfInBounds w v } })

/-- A register of the HL bank of a direction. -/
def hlReg {w : Nat} (dir : Bool) (get : HlBank → BitVec w) (set : BitVec w → HlBank → HlBank) : Reg :=
  argReg (fun r => get (hlBank dir r))
    (fun v r => if dir then { r with hl1 := set v r.hl1 } else { r with hl0 := set v r.hl0 })

/-- R31 to R36: the register at an offset of an HL bank. -/
def hlRegAt (dir : Bool) (o : Nat) : Option Reg :=
  if o = 0x00 then some <| hlReg dir (fun b => b.mcsTable) fun v b => { b with mcsTable := v }
  else if o = 0x01 then some <| hlReg dir (fun b => b.allocType) fun v b => { b with allocType := v }
  else if o = 0x02 then some <| hlReg dir (fun b => b.ssAssoc) fun v b => { b with ssAssoc := v }
  else if 0x10 ≤ o ∧ o < 0x20 then
    some <| hlReg dir (fun b => rowAt b.tdra (o - 0x10)) fun v b => { b with tdra := b.tdra.setIfInBounds (o - 0x10) v }
  else if 0x20 ≤ o ∧ o < 0x40 then
    some <| hlReg dir (fun b => rowAt b.apt (o - 0x20)) fun v b => { b with apt := b.apt.setIfInBounds (o - 0x20) v }
  else if 0x40 ≤ o ∧ o < 0x44 then
    some <| hlReg dir (fun b => rowAt b.dmrs (o - 0x40)) fun v b => { b with dmrs := b.dmrs.setIfInBounds (o - 0x40) v }
  else if 0x50 ≤ o ∧ o < 0x5E then
    some <| hlReg dir (fun b => rowAt b.rsv (o - 0x50)) fun v b => { b with rsv := b.rsv.setIfInBounds (o - 0x50) v }
  else none

/-- R69: the register at a word address; none is an unmapped address (U9). -/
def regAt (a : Nat) : Option Reg :=
  if a < 0x008 then systemReg a
  else if a < 0x018 then carrierReg a
  else if a < 0x028 then unitReg a
  else if a < 0x040 then coresetReg a
  else if a < 0x050 then dciReg a
  else if a < 0x05B then opReg a
  else if a < 0x060 then resReg a
  else if a < 0x070 then grantReg a
  else if a < 0x079 then some (maskReg (a - 0x070))
  else if a < 0x0A0 then tbReg a
  else if a < 0x0A4 then cfgReg a
  else if a < 0x0B2 then some (cfgRsvReg (a - 0x0A4))
  else if a < 0x0CC then callReg a
  else if a < 0x0D0 then some (pdMsgReg (a - 0x0CC))
  else if a < 0x100 then rxReg a
  else if a < 0x180 then hlRegAt false (a - 0x100)
  else hlRegAt true (a - 0x180)

/-- R21: `RegRead(a)`; an unmapped address reads as 0 (U9). -/
def regRead (a : BitVec 9) (s : State) : Word :=
  match regAt a.toNat with
  | some r => (r.get s).setWidth 32
  | none => 0

/-- R21: the effect of `RegWrite(a, v)` on the registers other than CMD: reserved bits, read-only registers and unmapped
addresses ignore it. -/
def regStore (a : BitVec 9) (v : Word) (s : State) : State :=
  match regAt a.toNat with
  | some r =>
    match r.set with
    | some f => f (v.setWidth r.width) s
    | none => s
  | none => s

/-- R21, R22: `RegWrite(a, v)` while no command is in flight; a write to CMD issues the command. -/
def hostWrite (a : BitVec 9) (v : Word) (s : State) : State := if a = 0 then issue v s else regStore a v s

/-! ## The bulk port (R75) -/

/-- A value is handed to the host. -/
def deliver (d : ReadData) (s : State) : State := { s with env := { s.env with readData := some d } }

/-- The host's reads have used n free values. -/
def portDrawn (n : Nat) (s : State) : State := { s with env := { s.env with portDraws := s.env.portDraws + n } }

/-- R70: the number of elements of a Sample space. -/
def sampleElems (sp : SampleSpace) (s : State) : Nat :=
  match sp with
  | .slotbuf a => if a.val < s.sa.car.nports.toNat then gridSize s.sa.car else 0
  | .rxbuf a => if a.val < s.pipe.car.nports.toNat then gridSize s.pipe.car else 0

/-- R70, R72: the number of 32-bit words of a bit array. -/
def bitWords : Nat := maxTbsBits / 32

/-- One element of a Sample space. -/
def sampleRead (sp : SampleSpace) (addr : Nat) (s : State) : Option Sample :=
  match sp with
  | .slotbuf a => bankRead s.mem.slotbuf a.val addr
  | .rxbuf a => bankRead s.mem.rxbuf a.val addr

/-- Write one element of a Sample space. -/
def sampleWrite (sp : SampleSpace) (addr : Nat) (v : Sample) (s : State) : State :=
  match sp with
  | .slotbuf a => { s with mem := { s.mem with slotbuf := bankWrite s.mem.slotbuf a.val addr v } }
  | .rxbuf a => { s with mem := { s.mem with rxbuf := bankWrite s.mem.rxbuf a.val addr v } }

/-- The bits of a bit array. -/
def bitArray (sp : BitSpace) (s : State) : Mem Bool :=
  match sp with
  | .payload c => s.mem.payload[c]
  | .rxpayload c => s.mem.rxpayload[c]

/-- R72: the word at a word address of a bit array; an undefined bit i is the arbitrary bit of draw d + i. -/
def wordRead (m : Mem Bool) (d addr : Nat) : Word := bitsOf 32 fun i => (memRead m (32 * addr + i)).getD (freeReadBit (d + i))

/-- R72: the 32 bits of a word, as writes. -/
def wordBits (addr : Nat) (v : Word) : List (Nat × Bool) := (List.range 32).map fun i => (32 * addr + i, v.getLsbD i)

/-- Write one word of a bit array. R72 and R75 give the host writes to both kinds; for RXPAYLOAD this is DEDUCED, unsafe
(log 14). -/
def wordWrite (sp : BitSpace) (addr : Nat) (v : Word) (s : State) : State :=
  match sp with
  | .payload c =>
    { s with mem := { s.mem with payload := s.mem.payload.set c (memWriteAll (s.mem.payload[c]) (wordBits addr v)) } }
  | .rxpayload c =>
    { s with mem := { s.mem with rxpayload := s.mem.rxpayload.set c (memWriteAll (s.mem.rxpayload[c]) (wordBits addr v)) } }

/-- R75, U15: what a read finds at an address: nothing at or beyond the number of elements, where the port refuses it. -/
def inSpace {α : Type} (addr n : Nat) (x : Option α) : Option α := if addr < n then x else none

/-- R75, U15: what a write makes of the state: nothing at or beyond the number of elements, where the port refuses it and "no
element is read or written". -/
def ifInSpace (addr n : Nat) (t s : State) : State := if addr < n then t else s

/-- R21, R75: a host access while no command is in flight. A read refused for its address returns an arbitrary value, as a read
refused by R366 does, and sets no flag (DESIGN CHOICE, safe, log 8). -/
def idleAccess (x : HostAccess) (s : State) : State :=
  match x with
  | .regRead a => deliver (.word (regRead a s)) s
  | .regWrite a v => hostWrite a v s
  | .readSample sp addr =>
    deliver (.sample ((inSpace addr (sampleElems sp s) (sampleRead sp addr s)).getD (freeReadSample s.env.portDraws)))
      (portDrawn 1 s)
  | .writeSample sp addr v => ifInSpace addr (sampleElems sp s) (sampleWrite sp addr v s) s
  | .readBits sp addr =>
    deliver (.word ((inSpace addr bitWords (some (wordRead (bitArray sp s) s.env.portDraws addr))).getD
      (freeReadWord s.env.portDraws))) (portDrawn 32 s)
  | .writeBits sp addr v => ifInSpace addr bitWords (wordWrite sp addr v s) s
  | .readCe addr => deliver (.ce ((memRead s.mem.ce addr).getD (freeReadCe s.env.portDraws))) (portDrawn 1 s)
  | .writeCe addr v => { s with mem := { s.mem with ce := memWrite s.mem.ce addr v } }

/-! ## Access while a command is in flight (R366) -/

/-- R366: the hazard flag is set; nothing else of the block changes. -/
def hazard (s : State) : State := { s with sys := hazardFlags s.sys }

/-- R366: a host access while BUSY = 1. The four system registers may be read; every other access is refused and sets HAZ,
a refused read returning an arbitrary value. -/
def busyAccess (x : HostAccess) (s : State) : State :=
  match x with
  | .regRead a =>
    if a.toNat < 4 then deliver (.word (regRead a s)) s
    else hazard (deliver (.word (freeReadWord s.env.portDraws)) (portDrawn 1 s))
  | .regWrite _ _ => hazard s
  | .readSample _ _ => hazard (deliver (.sample (freeReadSample s.env.portDraws)) (portDrawn 1 s))
  | .writeSample _ _ _ => hazard s
  | .readBits _ _ => hazard (deliver (.word (freeReadWord s.env.portDraws)) (portDrawn 1 s))
  | .writeBits _ _ _ => hazard s
  | .readCe _ => hazard (deliver (.ce (freeReadCe s.env.portDraws)) (portDrawn 1 s))
  | .writeCe _ _ => hazard s

/-- R21, R75, R366: one access of the host; each one goes on. -/
def hostAccess (x : HostAccess) (s : State) : Host.Outcome State Fault Refusal :=
  .next (if s.sys.busy then busyAccess x s else idleAccess x s)

/-! ## Fetch and reset -/

/-- R22, R24: there is no instruction memory; the word in flight is in CMD. -/
def fetchWord (s : State) : Word := s.sys.cmd

/-- R102, R318: a word that is not well formed executes nothing and completes with II_CMD_RESERVED, step 0. -/
def reservedWord (s : State) : Host.Outcome State Fault Refusal := finish (.raised { code := .iiCmdReserved, step := 0 } s)

/-- R350, R351: reset puts every register and memory element of the instance in its reset state, also while BUSY = 1; the
command in flight is abandoned, with no write and no collaborator call made (DESIGN CHOICE, unsafe, log 19). The environment
(schedule, scripted answers, history) is not the block's and goes on (DESIGN CHOICE, safe, log 10). -/
def hardReset (s : State) : State := { State.reset with env := s.env }

/-- The next turn of the schedule has been taken. -/
def turnTaken (rest : List Turn) (s : State) : State := { s with env := { s.env with schedule := rest } }

end Sys2Proof.Machine
end

