-- ==== Sys2Proof/Machine/Step.lean ====
section
/-! DEFINITION. One step: the next turn of the schedule (R15, R318, R350, R366). A command takes two turns: the host's CMD
write issues it, the executor's turn runs and completes it; host accesses between the two meet BUSY = 1. A schedule is finite
and the executor moves when it is used up, so every BUSY interval is finite (R364, U17). -/

namespace Sys2Proof.Machine

open Sys2Proof

/-- R318, execute and complete: the executor's turn. With no command in flight it has nothing to do. The whole command, its
collaborator calls included, falls into this one turn, so a command that a reset abandons before it has made no call; R350
leaves open which calls were already made (DESIGN CHOICE, unsafe, log 19). -/
def executorTurn (s : State) : Host.Outcome State Fault Refusal :=
  if s.sys.busy then
    match Sys2Proof.decode (fetchWord s) with
    | .ok i => exec i s
    | .error _ => reservedWord s
  else .next s

/-- One turn. -/
def runTurn (t : Turn) (s : State) : Host.Outcome State Fault Refusal :=
  match t with
  | .host x => hostAccess x s
  | .executor => executorTurn s
  | .reset => .next (hardReset s)

/-- One step of the machine: the head of the schedule moves. With nothing scheduled the executor completes the command in
flight (R364: the BUSY interval is finite), and without one the block is idle (R320). -/
def step (s : State) : Host.Outcome State Fault Refusal :=
  match s.env.schedule with
  | [] => executorTurn s
  | t :: rest => runTurn t (turnTaken rest s)

/-- s with the command word of a table row in flight, so that the very next step fetches and runs it: the word has been
written to CMD (R318, issue) and the executor moves next. A command word has 32 bits; bits at or above `nbits` are zero. -/
def State.withFetchWord (s : State) (nbits w : Nat) : State :=
  let t := issue (BitVec.ofNat 32 (w % 2 ^ nbits)) s
  { t with env := { t.env with schedule := .executor :: t.env.schedule } }

end Sys2Proof.Machine
end

