-- ==== Sys2Proof/Safety.lean ====
section
/-! DEFINITION. What counts as a good state and a safe run. Each predicate is an invariant that every step is claimed to
keep (the claims are in Certificates/Slice0/Obligations.lean); `hazardFree` is the duty of the host (R362, R367). -/

namespace Sys2Proof.Machine

open Sys2Proof.Config

/-- R222, R8: capacities of an initialised PIPE. -/
def capsLegal (p : PipeRegs) : Bool :=
  decide (1 ≤ p.capPrb.toNat) && decide (p.capPrb.toNat ≤ hwMaxPrb) && decide (1 ≤ p.capLayers.toNat) &&
    decide (p.capLayers.toNat ≤ hwMaxLayers) && decide (1 ≤ p.capCw.toNat) && decide (p.capCw.toNat ≤ hwMaxCw)

/-- R221 to R224, R64: the PIPE registers agree with the lifecycle state. -/
def pipeInv (p : PipeRegs) : Bool :=
  match p.state with
  | .uninit => p == PipeRegs.zero
  | .partialInit => p.capPrb == 0 && p.capLayers == 0 && p.capCw == 0 && !p.evmEn && p.car == Carrier.zero
  | .ready => capsLegal p && p.car == Carrier.zero
  | .carrierSet => capsLegal p && carrierValid p.car && decide (p.car.nprb.toNat ≤ p.capPrb.toNat)

/-- R270 to R272, R64: the SA registers agree with the lifecycle state, and a latched CORESET is legal. -/
def saInv (a : SaRegs) : Bool :=
  (match a.state with
    | .noCarrier => a.capPrb == 0 && a.capPorts == 0 && a.car == Carrier.zero
    | .carrierSet =>
      carrierValid a.car && decide (a.car.nprb.toNat ≤ a.capPrb.toNat) && decide (a.capPrb.toNat ≤ hwMaxPrb) &&
        decide (a.car.nports.toNat ≤ a.capPorts.toNat) && decide (a.capPorts.toNat ≤ hwMaxPorts)) &&
    (!a.csValid || !coresetIllegal a.coreset)

/-- Both units are in order. -/
def unitsInv (s : State) : Bool := pipeInv s.pipe && saInv s.sa

/-- R70, R81: every defined element of SLOTBUF lies in the grid of SA_CAR ("no out-of-bounds writes"). -/
def slotInGrid (s : State) : Bool :=
  (List.range 4).all fun a =>
    (s.mem.slotbuf[a]?.getD []).all fun e =>
      decide (a < s.sa.car.nports.toNat) && decide (e.1 < gridSize s.sa.car)

/-- R62, R70: every defined bit of a bit array lies below its capacity. -/
def bitsInArrays (s : State) : Bool :=
  (s.mem.payload.toList.all fun m => m.all fun e => decide (e.1 < maxTbsBits)) &&
    (s.mem.rxpayload.toList.all fun m => m.all fun e => decide (e.1 < maxTbsBits))

/-- R311: the code numbers that exist. -/
def knownCodes : List (BitVec 8) :=
  [0x10, 0x11, 0x12, 0x13, 0x14, 0x15, 0x16, 0x17, 0x18, 0x19, 0x1A, 0x1B, 0x1C, 0x1D, 0x1E, 0x1F, 0x20, 0x21, 0x22, 0x23,
   0x24, 0x25] ++ [0x40, 0x41, 0x42, 0x43] ++ [0x60, 0x61, 0x62, 0x63, 0x64] ++ [0x80, 0x81, 0x82]

/-- R23, R310, R311, R318: BUSY and DONE exclude each other; an error record is whole or absent; LAST_OP is the opcode byte
of CMD; a command in flight has no error yet. -/
def statusInv (y : SystemRegs) : Bool :=
  !(y.busy && y.done) && !(y.busy && y.err) && y.lastOp == y.cmd.extractLsb' 0 8 &&
    (if y.err then knownCodes.contains y.errCode && y.errClass == classOfNum y.errCode
     else y.errClass == 0 && y.errCode == 0 && y.errStep == 0)

/-- R44, R124: RES_* hold what the RAE commands can write. -/
def resInv (r : ResRegs) : Bool :=
  (if r.rateInvalid then r.rate == 0 else r.rate == 0 || (decide (60 ≤ r.rate.toNat) && decide (r.rate.toNat ≤ 1896))) &&
    (r.qm == 0 || qmLegal r.qm.toNat) && decide (r.tbs.toNat % 8 = 0) && decide (r.nre.toNat ≤ r.nreAvail.toNat)

/-- R49, R254: RX_* hold what DECODE can write: codeword 1 is never decoded; OK, a length and an EVM only with VALID. -/
def rxInv (r : RxRegs) : Bool :=
  r.cw1 == RxCw.zero && (r.cw0.valid || (r.cw0 == RxCw.zero && !r.evmValid)) && (r.evmValid || r.cw0.evm == 0) &&
    decide (r.cw0.len.toNat ≤ maxTbsBits)

/-- All invariants together. -/
def goodState (s : State) : Bool :=
  memoriesWf s.mem && unitsInv s && slotInGrid s && bitsInArrays s && statusInv s.sys && resInv s.res && rxInv s.rx

/-- R362, R367: the host has kept its duty so far. -/
def hazardFree (s : State) : Bool := !s.sys.haz

end Sys2Proof.Machine
end

