-- ==== Sys2Proof/Certificates/Slice0/Obligations.lean ====
section
/-! DEFINITION. The statements for the provers. Each says what an instruction or the machine does, in the terms of the
spec's numbered rules; class, code and step numbers are written out as R310, R311 and R313 give them. -/

namespace Sys2Proof.Claims

open Sys2Proof.Machine Sys2Proof.Config

/-! ## How a command ends (R318) -/

/-- R24, R318, complete after success: CMDCNT advances, DONE is set, BUSY is cleared; nothing else changes. -/
def completed (s : State) : State :=
  { s with sys := { s.sys with cmdcnt := s.sys.cmdcnt + 1, done := true, busy := false } }

/-- R318, error entry and completion: ERR, ERR_CLASS, ERR_CODE and ERR_STEP are written, then as after success. -/
def failed (cls : BitVec 3) (code : BitVec 8) (stp : BitVec 4) (s : State) : State :=
  { s with sys := { s.sys with err := true, errClass := cls, errCode := code, errStep := stp,
                               cmdcnt := s.sys.cmdcnt + 1, done := true, busy := false } }

/-! ## Legality of values -/

/-- R26: a carrier that is not valid. -/
abbrev CarrierIllegal (c : Carrier) : Prop :=
  c.nprb.toNat < 1 ∨ 275 < c.nprb.toNat ∨ 4 < c.mu.toNat ∨ c.nports.toNat < 1 ∨ 4 < c.nports.toNat

/-- R149, R225 line 12: NCG is 0, or 3 with DMRS type 1. -/
abbrev GroupsIllegal (type2 : Bool) (ncg : BitVec 2) : Prop := ncg = 0 ∨ (type2 = false ∧ ncg = 3)

/-- R159, R225 line 13: port p does not exist for the DMRS type, or its group is not below NCG. -/
abbrev PortRefused (type2 : Bool) (ncg : BitVec 2) (p : Nat) : Prop :=
  (type2 = false ∧ 8 ≤ p) ∨ ncg.toNat ≤ portGroup type2 p

/-- R47, D47: a legal modulation order. -/
abbrev OrderLegal (qm : Nat) : Prop := qm = 2 ∨ qm = 4 ∨ qm = 6 ∨ qm = 8

/-! ## The shared checks of ENCODE, DECODE and PDSCH_PUT -/

/-- R225: class and code of the first failing line of `CheckGrant(role)`. That line 4, not the II_STATE of R270, decides
PDSCH_PUT without a carrier in the SA is the model's choice (log 18). -/
def checkGrantError (role : Role) (s : State) : Option (BitVec 3 × BitVec 8) :=
  let gr := s.recs.gr
  let cfg := s.recs.cfg
  if s.pipe.state ≠ .carrierSet then some (1, 0x11)
  else if s.pipe.role ≠ role then some (1, 0x25)
  else if gr.valid = false ∨ cfg.valid = false then some (1, 0x14)
  else if role = .transmitter ∧ (s.sa.state = .noCarrier ∨ s.sa.car ≠ s.pipe.car) then some (1, 0x13)
  else if ∃ n ∈ prbSet gr.prbMask, s.pipe.capPrb.toNat ≤ n then some (3, 0x60)
  else if s.pipe.capLayers.toNat < gr.nlayers.toNat then some (3, 0x61)
  else if s.pipe.capCw.toNat < s.recs.tb0.en.toNat + s.recs.tb1.en.toNat then some (3, 0x62)
  else if prbSet gr.prbMask = [] then some (1, 0x15)
  else if ∃ n ∈ prbSet gr.prbMask, s.pipe.car.nprb.toNat ≤ n then some (1, 0x17)
  else if gr.symL = 0 ∨ nsymb s.pipe.car.cp < gr.symS.toNat + gr.symL.toNat then some (1, 0x16)
  else if gr.nlayers = 0 ∨ popcount gr.ports ≠ gr.nlayers.toNat then some (1, 0x24)
  else if GroupsIllegal cfg.dmrsType gr.ncg then some (1, 0x24)
  else if ∃ p ∈ setBits gr.ports, PortRefused cfg.dmrsType gr.ncg p then some (1, 0x24)
  else if s.pipe.car.nports.toNat < gr.nlayers.toNat then some (1, 0x1E)
  else if s.recs.tb1.en = true then some (2, 0x41)
  else if s.args.en.precode = true then some (2, 0x42)
  else none

/-- R229: G, the coded bits that exactly fill the available elements. -/
def codedLength (r : Records) : Nat := (posList (patternOf r)).length * r.tb0.qm.toNat * r.gr.nlayers.toNat

/-- R229: class and code of the first failing line of `CheckCodeword()`. -/
def checkCodewordError (role : Role) (s : State) : Option (BitVec 3 × BitVec 8) :=
  let tb := s.recs.tb0
  if ¬ OrderLegal tb.qm.toNat then some (1, 0x24)
  else if tb.tbs.toNat = 0 ∨ 2097152 < tb.tbs.toNat then some (1, 0x1F)
  else if role = .transmitter ∧ s.args.en.payLen0 ≠ tb.tbs then some (1, 0x1F)
  else if codedLength s.recs < tb.nbits.toNat then some (3, 0x63)
  else if tb.nbits.toNat < codedLength s.recs ∨ codedLength s.recs = 0 then some (1, 0x20)
  else none

/-! ## DCI to grant (R156 to R162) -/

/-- R156 to R161: class, code and step of the first check of `Dci2Grant(dir)` that fails. -/
def dciError (dir : Bool) (a : ArgRegs) : Option (BitVec 3 × BitVec 8 × BitVec 4) :=
  let hl := hlBank dir a
  let row := dciTdraRow dir a
  let apt := dciAptRow dir a
  let dm := dciDmrsRow dir a
  let nu := popcount (aptPorts apt)
  if CarrierIllegal a.car then some (1, 0x12, 15)
  else if (dir = false ∧ a.dci.format ≠ 2 ∧ a.dci.format ≠ 3) ∨ (dir = true ∧ a.dci.format ≠ 0 ∧ a.dci.format ≠ 1) then
    some (1, 0x18, 15)
  else if 2 ≤ a.dci.ssType.toNat ∨ 8 ≤ a.dci.rntiType.toNat then some (1, 0x18, 15)
  else if hl.ssAssoc.getLsbD (8 * a.dci.ssType.toNat + a.dci.rntiType.toNat) = false then some (1, 0x19, 15)
  else if hl.allocType ≠ 1 then some (2, 0x40, 1)
  else match rivDecode a.car.nprb.toNat a.dci.fda.toNat with
  | none => some (1, 0x1A, 1)
  | some (start, len) =>
    if tdraValid row = false then some (1, 0x1B, 2)
    else if tdraL row = 0 ∨ nsymb a.car.cp < (tdraS row).toNat + (tdraL row).toNat then some (1, 0x16, 2)
    else if aptValid apt = false then some (1, 0x1C, 3)
    else if nu = 0 then some (1, 0x1C, 3)
    else if 4 < nu then some (2, 0x43, 3)
    else if a.car.nports.toNat < nu then some (1, 0x1E, 3)
    else if dmrsValid dm = false then some (1, 0x1D, 3)
    else if GroupsIllegal (dmrsType dm) (aptNcg apt) then some (1, 0x1C, 3)
    else if ∃ p ∈ setBits (aptPorts apt), PortRefused (dmrsType dm) (aptNcg apt) p then some (1, 0x1C, 3)
    else if mcsLookup hl.mcsTable a.dci.format a.dci.ssType a.dci.rntiType a.dci.mcs = none then some (4, 0x80, 4)
    else if nreEff (dciPattern dir a start len) = 0 then some (4, 0x81, 5)
    else none

/-- R162: what the Grant, transport-block and configuration registers hold after a DCI2GRANT that succeeds. -/
def DciWrites (dir : Bool) (a : ArgRegs) (r : Records) : Prop :=
  let hl := hlBank dir a
  let row := dciTdraRow dir a
  let apt := dciAptRow dir a
  let dm := dciDmrsRow dir a
  let nu := popcount (aptPorts apt)
  ∃ start len qm rate t, rivDecode a.car.nprb.toNat a.dci.fda.toNat = some (start, len) ∧
    mcsLookup hl.mcsTable a.dci.format a.dci.ssType a.dci.rntiType a.dci.mcs = some (qm, rate) ∧
    tbsOf (nreEff (dciPattern dir a start len)) 1 rate qm nu = some t ∧
    (r.gr.valid = true ∧ r.gr.dir = dir ∧ r.gr.format = a.dci.format ∧ r.gr.ssType = a.dci.ssType ∧
      r.gr.rntiType = a.dci.rntiType ∧ r.gr.rbStart.toNat = start ∧ r.gr.rbLen.toNat = len ∧
      r.gr.mapType = tdraMap row ∧ r.gr.symS = tdraS row ∧ r.gr.symL = tdraL row ∧ r.gr.nlayers.toNat = nu ∧
      r.gr.ncg = aptNcg apt ∧ r.gr.ports = aptPorts apt ∧ r.gr.dmrsPtr = a.dci.dmrsPtr ∧
      r.gr.nre.toNat = nreEff (dciPattern dir a start len) ∧
      r.gr.nreAvail.toNat = nreAvail (dciPattern dir a start len) ∧
      ∀ n < 288, prbBit r.gr.prbMask n = decide (start ≤ n ∧ n < start + len)) ∧
    (r.tb0.en = true ∧ r.tb0.mcs = a.dci.mcs ∧ r.tb0.qm.toNat = qm ∧ r.tb0.r.toNat = rate ∧ r.tb0.tbs.toNat = t ∧
      r.tb0.rv = a.dci.rv ∧ r.tb0.nbits.toNat = nreAvail (dciPattern dir a start len) * qm * nu) ∧
    r.tb1 = { en := false, mcs := 0, qm := 0, r := 0, tbs := 0, rv := 0, nbits := 0 } ∧
    r.cfg.valid = true ∧ r.cfg.mcsTable = hl.mcsTable ∧ r.cfg.dmrsType = dmrsType dm ∧ r.cfg.rsv = hl.rsv ∧
    ∀ l < 14, r.cfg.dmrsSym.getLsbD l =
      ((dmrsSym dm).getLsbD l && decide ((tdraS row).toNat ≤ l ∧ l < (tdraS row).toNat + (tdraL row).toNat))

/-- R163: the records after a DCI2GRANT that fails. -/
def recordsInvalid (r : Records) : Records :=
  { r with gr := { r.gr with valid := false }, cfg := { r.cfg with valid := false } }

/-! ## Slot buffer -/

/-- R71: `SLOT[a][l][k]` of the carrier SA_CAR; none is an undefined element. -/
def slotAt (s : State) (a l k : Nat) : Option Sample := bankRead s.mem.slotbuf a (gridAddr s.sa.car.nprb.toNat l k)

/-- R232, R240: bit j of group i of the scrambled stream. -/
def scrambledBit (b c : List Bool) (qm i j : Nat) : Bool := xor (b.getD (qm * i + j) false) (c.getD (qm * i + j) false)

/-- R240: the Sample of group i of the scrambled stream. -/
def symbolOf (b c : List Bool) (qm i : Nat) : Sample :=
  num.point qm (gridPoint qm (scrambledBit b c qm i)).1 (gridPoint qm (scrambledBit b c qm i)).2

/-- R242, R245: the data of the grant stands in the slot buffer of t: layer lam, position i, holds symbol nu·i + lam. -/
def DataPlaced (s t : State) (b c : List Bool) : Prop :=
  ∀ lam < s.recs.gr.nlayers.toNat, ∀ i l k, (posList (patternOf s.recs))[i]? = some (l, k) →
    slotAt t lam l k = some (symbolOf b c s.recs.tb0.qm.toNat (s.recs.gr.nlayers.toNat * i + lam))

/-- R242: the address is a data position of the grant, on an antenna that carries a layer. -/
def DataElement (s : State) (a addr : Nat) : Prop :=
  a < s.recs.gr.nlayers.toNat ∧ ∃ l k, (l, k) ∈ posList (patternOf s.recs) ∧ addr = gridAddr s.sa.car.nprb.toNat l k

/-- R277: the address is a DMRS position of the grant, on the antenna of its layer. -/
def DmrsElement (s : State) (a addr : Nat) : Prop :=
  ∃ p l k, (a, p, l, k) ∈ dmrsPositions (patternOf s.recs) s.recs.gr.ports ∧
    addr = gridAddr s.sa.car.nprb.toNat l k

/-- R277: the values of the collaborator stand at the DMRS positions of the grant, in order. -/
def DmrsPlaced (s t : State) (v : List Sample) : Prop :=
  ∀ (i j p l k : Nat) (x : Sample), (dmrsPositions (patternOf s.recs) s.recs.gr.ports)[i]? = some (j, p, l, k) →
    v[i]? = some x → slotAt t j l k = some x

/-- Elements of the slot buffer other than those named by P are as before. -/
def SlotOtherwise (s t : State) (P : Nat → Nat → Prop) : Prop :=
  ∀ a < 4, ∀ addr, ¬ P a addr → bankRead t.mem.slotbuf a addr = bankRead s.mem.slotbuf a addr

/-- R279: the grid of antenna a: one row per symbol, one entry per subcarrier, each defined element times the phase factor of
its symbol; an undefined element is arbitrary. -/
def PhasedGrid (s : State) (a : Nat) (grid : List (List Sample)) : Prop :=
  grid.length = nsymb s.sa.car.cp ∧ (∀ row ∈ grid, row.length = 12 * s.sa.car.nprb.toNat) ∧
    ∀ l < nsymb s.sa.car.cp, ∀ k < 12 * s.sa.car.nprb.toNat, ∀ x, slotAt s a l k = some x →
      (grid[l]?.bind fun row => row[k]?) = some (num.mul x (phase l))

/-- R274: the value a list of (l, k, value) entries gives an element address; of two entries the later wins. -/
def lastEntry (n : Nat) (w : List (Nat × Nat × Sample)) (addr : Nat) : Option Sample :=
  (w.reverse.find? fun e => gridAddr n e.1 e.2.1 == addr).map fun e => e.2.2

/-- R334: an earlier call of Seq.gen with the arguments of this one, if there was one, gave c. -/
def SequenceAgrees (s : State) (c : List Bool) : Prop :=
  knownSequence s.env.history s.args.en.cellId s.args.en.rnti s.args.en.slot 0 (codedLength s.recs) = none ∨
    knownSequence s.env.history s.args.en.cellId s.args.en.rnti s.args.en.slot 0 (codedLength s.recs) = some c

/-- R67, R231, R232: the two calls of ENCODE, with the payload bits a and the answers b and c. -/
def encodeCalls (s : State) (a b c : List Bool) : List CollabEvent :=
  let tb := s.recs.tb0
  [ .fecEncode a tb.tbs.toNat (codedLength s.recs) tb.qm.toNat s.recs.gr.nlayers.toNat tb.rv tb.r tb.mcs (some b),
    .seqGen s.args.en.cellId s.args.en.rnti s.args.en.slot 0 (codedLength s.recs) (some c) ]

/-- R72, R230: a holds the payload bits 0 .. tbs−1; a bit the host never wrote is arbitrary. -/
def IsPayload (s : State) (a : List Bool) : Prop :=
  a.length = s.recs.tb0.tbs.toNat ∧
    ∀ i < a.length, ∀ x, memRead s.mem.payload[0] i = some x → a[i]? = some x

/-- R251: r holds, for each port, the received samples at the data positions; an element never written is arbitrary. -/
def Received (s : State) (r : List (List Sample)) : Prop :=
  r.length = s.pipe.car.nports.toNat ∧ (∀ x ∈ r, x.length = (posList (patternOf s.recs)).length) ∧
    ∀ (a i l k : Nat) (x : Sample), a < r.length → (posList (patternOf s.recs))[i]? = some (l, k) →
      bankRead s.mem.rxbuf a (gridAddr s.pipe.car.nprb.toNat l k) = some x → (r[a]?.bind fun y => y[i]?) = some x

/-- R252: dh(nu·i + lam) = xh[lam](i). -/
def Unmapped (s : State) (xh : List (List Sample)) (dh : List Sample) : Prop :=
  dh.length = s.recs.gr.nlayers.toNat * (posList (patternOf s.recs)).length ∧
    ∀ lam < s.recs.gr.nlayers.toNat, ∀ i < (posList (patternOf s.recs)).length,
      dh[s.recs.gr.nlayers.toNat * i + lam]? = xh[lam]?.bind fun x => x[i]?

/-- R253: soft bit i is soft bit (i mod Qm) of symbol (i div Qm), negated where c(i) = 1. -/
def SoftBitsOf (s : State) (dh : List Sample) (c : List Bool) (llr : List Llr) : Prop :=
  llr.length = codedLength s.recs ∧
    ∀ i x, dh[i / s.recs.tb0.qm.toNat]? = some x → i < llr.length →
      llr[i]? = some (if c.getD i false then num.neg (num.softdemod s.recs.tb0.qm.toNat x (i % s.recs.tb0.qm.toNat))
        else num.softdemod s.recs.tb0.qm.toNat x (i % s.recs.tb0.qm.toNat))

/-- R67, R252 to R254, R40: the three calls of DECODE; GR_MAP_TYPE goes to the equaliser after the list of R252 (log 17). -/
def decodeCalls (s : State) (r xh : List (List Sample)) (c : List Bool) (llr : List Llr) (answer : List Bool × Bool) :
    List CollabEvent :=
  let tb := s.recs.tb0
  let nu := s.recs.gr.nlayers.toNat
  [ .equalize s.mem.ce r s.pipe.car.nports.toNat nu (posList (patternOf s.recs)) s.recs.cfg.dmrsType s.recs.cfg.dmrsSym
      s.recs.gr.ports s.recs.gr.mapType (some xh),
    .seqGen s.args.en.cellId s.args.en.rnti s.args.en.slot 0 (codedLength s.recs) (some c),
    .fecDecode llr (codedLength s.recs) tb.tbs.toNat tb.qm.toNat nu tb.rv tb.r tb.mcs (some answer) ]

/-! ## Collaborators that fail (R330): a reported failure or an answer of the wrong shape -/

/-- R331: the next answer of Fec.encode reports failure or is not G bits. -/
def FecEncodeFails (s : State) : Prop :=
  ∃ x, s.env.answers.fecEncode.head? = some x ∧ ∀ b, x = some b → b.length ≠ codedLength s.recs

/-- R231: the next answer of Fec.encode is G bits. -/
def FecEncodeAnswers (s : State) : Prop :=
  ∃ b, s.env.answers.fecEncode.head? = some (some b) ∧ b.length = codedLength s.recs

/-- R232, R253, R334: the next answer of Seq.gen reports failure or is not G bits. -/
def SeqGenFails (s : State) : Prop :=
  ∃ x, s.env.answers.seqGen.head? = some x ∧ ∀ c, x = some c → SequenceAgrees s c ∧ c.length ≠ codedLength s.recs

/-- R232, R253: the next answer of Seq.gen is G bits. -/
def SeqGenAnswers (s : State) : Prop :=
  ∃ c, s.env.answers.seqGen.head? = some (some c) ∧ SequenceAgrees s c ∧ c.length = codedLength s.recs

/-- R252: layers of the right shape, nu sequences of length(P) Samples. -/
def LayersShaped (s : State) (xh : List (List Sample)) : Prop :=
  xh.length = s.recs.gr.nlayers.toNat ∧ ∀ x ∈ xh, x.length = (posList (patternOf s.recs)).length

/-- R231, R232: some collaborator of ENCODE fails, every earlier one having answered in shape. -/
def EncodeCollabFails (s : State) : Prop := FecEncodeFails s ∨ (FecEncodeAnswers s ∧ SeqGenFails s)

/-- R252 to R254: some collaborator of DECODE fails, every earlier one having answered in shape. -/
def DecodeCollabFails (s : State) : Prop :=
  (∃ x, s.env.answers.equalize.head? = some x ∧ ∀ xh, x = some xh → ¬ LayersShaped s xh) ∨
  ((∃ xh, s.env.answers.equalize.head? = some (some xh) ∧ LayersShaped s xh) ∧
    (SeqGenFails s ∨
      (SeqGenAnswers s ∧ ∃ x, s.env.answers.fecDecode.head? = some x ∧
        ∀ bits ok, x = some (bits, ok) → bits.length ≠ s.recs.tb0.tbs.toNat)))

/-- R275: a position lies in the control region. -/
abbrev InRegion (s : State) (e : Nat × Nat × Sample) : Prop :=
  e.1 < s.sa.coreset.dur.toNat ∧ e.2.1 < 12 * s.sa.car.nprb.toNat ∧
    (s.sa.coreset.freqHi ++ s.sa.coreset.freqLo).getLsbD (e.2.1 / 12 / 6) = true

/-- R274: memory with the elements of a list of PDCCH_PUT written to antenna 0. -/
def pdcchPlaced (s : State) (w : List (Nat × Nat × Sample)) : Memories :=
  { s.mem with slotbuf := slotWriteAll s.sa.car.nprb.toNat s.mem.slotbuf (pdcchWrites w) }

/-- R277: memory with the DMRS of the grant written. -/
def dmrsPlaced (s : State) (v : List Sample) : Memories :=
  { s.mem with
    slotbuf := slotWriteAll s.sa.car.nprb.toNat s.mem.slotbuf
      (dmrsWrites (dmrsPositions (patternOf s.recs) s.recs.gr.ports) v) }

/-! ## The register port, written out from the tables of the spec (R22 to R49, R69) -/

/-- A one-bit register as it reads. -/
abbrev bitWord (b : Bool) : Word := if b then 1 else 0

/-- R22 to R46, R49: what a read of each scalar register gives: (address, value). The packed registers STATUS, ERRINFO,
PIPE_CAR, SA_CAR, RES_RATE and RX_CRC are in `PackedFieldsReadInPlace`, the tables in `TablesAtTheirAddresses`. -/
def scalarReads (s : State) : List (Nat × Word) :=
  [(0x000, s.sys.cmd), (0x003, s.sys.cmdcnt)] ++
  [(0x008, s.args.car.nprb.setWidth 32), (0x009, s.args.car.mu.setWidth 32), (0x00A, bitWord s.args.car.cp),
    (0x00B, s.args.car.nports.setWidth 32), (0x010, s.args.pa.maxPrb.setWidth 32), (0x011, s.args.pa.maxLayers.setWidth 32),
    (0x012, s.args.pa.maxCw.setWidth 32), (0x013, bitWord s.args.pa.measureEvm)] ++
  [(0x018, match s.pipe.state with | .uninit => 0 | .partialInit => 1 | .ready => 2 | .carrierSet => 3),
    (0x019, match s.pipe.role with | .transmitter => 0 | .receiver => 1), (0x01A, s.pipe.capPrb.setWidth 32),
    (0x01B, s.pipe.capLayers.setWidth 32), (0x01C, s.pipe.capCw.setWidth 32), (0x01D, bitWord s.pipe.evmEn),
    (0x020, match s.sa.state with | .noCarrier => 0 | .carrierSet => 1), (0x021, s.sa.capPrb.setWidth 32),
    (0x022, s.sa.capPorts.setWidth 32), (0x024, bitWord s.sa.csValid)] ++
  [(0x028, s.args.cs.freqLo), (0x029, s.args.cs.freqHi.setWidth 32), (0x02A, s.args.cs.dur.setWidth 32),
    (0x02B, s.args.cs.id.setWidth 32), (0x02C, s.args.cs.opaqueWord)] ++
  [(0x040, s.args.dci.format.setWidth 32), (0x041, s.args.dci.ssType.setWidth 32), (0x042, s.args.dci.rntiType.setWidth 32),
    (0x043, s.args.dci.fda.setWidth 32), (0x044, s.args.dci.tda.setWidth 32), (0x045, s.args.dci.mcs.setWidth 32),
    (0x046, s.args.dci.rv.setWidth 32), (0x047, s.args.dci.ports.setWidth 32), (0x048, s.args.dci.dmrsPtr.setWidth 32)] ++
  [(0x050, s.args.op.table.setWidth 32), (0x051, s.args.op.format.setWidth 32), (0x052, s.args.op.ssType.setWidth 32),
    (0x053, s.args.op.rntiType.setWidth 32), (0x054, s.args.op.mcs.setWidth 32), (0x055, s.args.op.nre.setWidth 32),
    (0x056, s.args.op.sc.setWidth 32), (0x057, s.args.op.r.setWidth 32), (0x058, s.args.op.qm.setWidth 32),
    (0x059, s.args.op.nlayers.setWidth 32)] ++
  [(0x05B, s.res.nreAvail.setWidth 32), (0x05D, s.res.qm.setWidth 32), (0x05E, s.res.nre.setWidth 32), (0x05F, s.res.tbs)] ++
  [(0x060, bitWord s.recs.gr.valid), (0x061, bitWord s.recs.gr.dir), (0x062, s.recs.gr.format.setWidth 32),
    (0x063, s.recs.gr.ssType.setWidth 32), (0x064, s.recs.gr.rntiType.setWidth 32), (0x065, s.recs.gr.rbStart.setWidth 32),
    (0x066, s.recs.gr.rbLen.setWidth 32), (0x067, bitWord s.recs.gr.mapType), (0x068, s.recs.gr.symS.setWidth 32),
    (0x069, s.recs.gr.symL.setWidth 32), (0x06A, s.recs.gr.nlayers.setWidth 32), (0x06B, s.recs.gr.ncg.setWidth 32),
    (0x06C, s.recs.gr.ports.setWidth 32), (0x06D, s.recs.gr.dmrsPtr.setWidth 32), (0x06E, s.recs.gr.nre.setWidth 32),
    (0x06F, s.recs.gr.nreAvail.setWidth 32)] ++
  [(0x080, bitWord s.recs.tb0.en), (0x081, s.recs.tb0.mcs.setWidth 32), (0x082, s.recs.tb0.qm.setWidth 32),
    (0x083, s.recs.tb0.r.setWidth 32), (0x084, s.recs.tb0.tbs), (0x085, s.recs.tb0.rv.setWidth 32), (0x086, s.recs.tb0.nbits),
    (0x088, bitWord s.recs.tb1.en), (0x089, s.recs.tb1.mcs.setWidth 32), (0x08A, s.recs.tb1.qm.setWidth 32),
    (0x08B, s.recs.tb1.r.setWidth 32), (0x08C, s.recs.tb1.tbs), (0x08D, s.recs.tb1.rv.setWidth 32), (0x08E, s.recs.tb1.nbits)] ++
  [(0x0A0, bitWord s.recs.cfg.valid), (0x0A1, s.recs.cfg.mcsTable.setWidth 32), (0x0A2, bitWord s.recs.cfg.dmrsType),
    (0x0A3, s.recs.cfg.dmrsSym.setWidth 32)] ++
  [(0x0C0, s.args.en.cellId.setWidth 32), (0x0C1, s.args.en.rnti.setWidth 32), (0x0C2, s.args.en.slot.setWidth 32),
    (0x0C3, bitWord s.args.en.precode), (0x0C4, s.args.en.payLen0), (0x0C5, s.args.en.payLen1), (0x0C6, s.args.en.tctx),
    (0x0C8, s.args.pd.aggr.setWidth 32), (0x0C9, s.args.pd.ncce.setWidth 32), (0x0CA, s.args.pd.msgLen.setWidth 32)] ++
  [(0x0D2, s.rx.cw0.evm), (0x0D3, s.rx.cw1.evm), (0x0D4, bitWord s.rx.evmValid), (0x0D5, s.rx.tctx), (0x0D6, s.rx.cw0.len),
    (0x0D7, s.rx.cw1.len)] ++
  [(0x100, s.args.hl0.mcsTable.setWidth 32), (0x101, s.args.hl0.allocType.setWidth 32), (0x102, s.args.hl0.ssAssoc.setWidth 32),
    (0x180, s.args.hl1.mcsTable.setWidth 32), (0x181, s.args.hl1.allocType.setWidth 32), (0x182, s.args.hl1.ssAssoc.setWidth 32)]

/-- R31 to R36: the registers of an HL bank at a base: (address, number of bits, writable). -/
def hlTable (base : Nat) : List (Nat × Nat × Bool) :=
  [(base, 2, true), (base + 0x01, 2, true), (base + 0x02, 16, true)] ++
  (List.range 16).map (fun i => (base + 0x10 + i, 10, true)) ++ (List.range 32).map (fun i => (base + 0x20 + i, 15, true)) ++
  (List.range 4).map (fun i => (base + 0x40 + i, 16, true)) ++ (List.range 14).map (fun i => (base + 0x50 + i, 12, true))

/-- R22 to R49, R69: every register of the port: (address, number of bits, host write stored). CMD stands with false: its
write is an issue, not a store. -/
def portTable : List (Nat × Nat × Bool) :=
  [(0x000, 32, false), (0x001, 16, false), (0x002, 12, false), (0x003, 32, false)] ++
  [(0x008, 9, true), (0x009, 3, true), (0x00A, 1, true), (0x00B, 3, true), (0x010, 9, true), (0x011, 3, true),
    (0x012, 2, true), (0x013, 1, true)] ++
  [(0x018, 3, false), (0x019, 1, false), (0x01A, 9, false), (0x01B, 3, false), (0x01C, 2, false), (0x01D, 1, false),
    (0x01E, 16, false), (0x020, 1, false), (0x021, 9, false), (0x022, 3, false), (0x023, 16, false), (0x024, 1, false)] ++
  [(0x028, 32, true), (0x029, 13, true), (0x02A, 2, true), (0x02B, 4, true), (0x02C, 32, true)] ++
  [(0x040, 3, true), (0x041, 2, true), (0x042, 4, true), (0x043, 16, true), (0x044, 4, true), (0x045, 5, true),
    (0x046, 2, true), (0x047, 5, true), (0x048, 2, true)] ++
  [(0x050, 2, true), (0x051, 3, true), (0x052, 2, true), (0x053, 4, true), (0x054, 5, true), (0x055, 20, true),
    (0x056, 2, true), (0x057, 12, true), (0x058, 4, true), (0x059, 3, true)] ++
  [(0x05B, 20, false), (0x05C, 32, false), (0x05D, 4, false), (0x05E, 20, false), (0x05F, 32, false)] ++
  [(0x060, 1, true), (0x061, 1, true), (0x062, 3, true), (0x063, 2, true), (0x064, 4, true), (0x065, 9, true),
    (0x066, 9, true), (0x067, 1, true), (0x068, 4, true), (0x069, 4, true), (0x06A, 3, true), (0x06B, 2, true),
    (0x06C, 12, true), (0x06D, 2, true), (0x06E, 20, true), (0x06F, 20, true)] ++
  (List.range 9).map (fun i => (0x070 + i, 32, true)) ++
  [(0x080, 1, true), (0x081, 5, true), (0x082, 4, true), (0x083, 12, true), (0x084, 32, true), (0x085, 2, true),
    (0x086, 32, true), (0x088, 1, true), (0x089, 5, true), (0x08A, 4, true), (0x08B, 12, true), (0x08C, 32, true),
    (0x08D, 2, true), (0x08E, 32, true)] ++
  [(0x0A0, 1, true), (0x0A1, 2, true), (0x0A2, 1, true), (0x0A3, 14, true)] ++
  (List.range 14).map (fun i => (0x0A4 + i, 12, true)) ++
  [(0x0C0, 10, true), (0x0C1, 16, true), (0x0C2, 8, true), (0x0C3, 1, true), (0x0C4, 32, true), (0x0C5, 32, true),
    (0x0C6, 32, true), (0x0C8, 5, true), (0x0C9, 8, true), (0x0CA, 8, true)] ++
  (List.range 4).map (fun i => (0x0CC + i, 32, true)) ++
  [(0x0D0, 2, false), (0x0D1, 2, false), (0x0D2, 32, false), (0x0D3, 32, false), (0x0D4, 1, false), (0x0D5, 32, false),
    (0x0D6, 32, false), (0x0D7, 32, false)] ++
  hlTable 0x100 ++ hlTable 0x180

/-- R31: the address of offset o of an HL bank, false downlink. -/
def hlAddr (dir : Bool) (o : Nat) : BitVec 9 := BitVec.ofNat 9 ((if dir then 0x180 else 0x100) + o)

/-- R75: a read changes nothing but what the host last read and the port's draw counter. -/
def ReadOnly (s t : State) : Prop :=
  t = { s with env := { s.env with readData := t.env.readData, portDraws := t.env.portDraws } }

/-- R123: w is the packed carrier c. -/
abbrev PacksCarrier (w : Word) (c : Carrier) : Prop :=
  w.extractLsb' 0 9 = c.nprb ∧ w.extractLsb' 9 3 = c.mu ∧ w.getLsbD 12 = c.cp ∧ w.extractLsb' 13 3 = c.nports ∧
    w.extractLsb' 16 16 = 0

/-- R49: w is RX_CRC[c]. -/
abbrev PacksCrc (w : Word) (c : RxCw) : Prop := w.getLsbD 0 = c.ok ∧ w.getLsbD 1 = c.valid ∧ w.extractLsb' 2 30 = 0

/-! ## Transport-block size in exact integers (R150, R198) -/

/-- R198: x is the smallest entry of R197 not less than v. -/
abbrev LeastEntry (v x : Nat) : Prop := x ∈ quantEntries ∧ v ≤ x ∧ ∀ e ∈ quantEntries, v ≤ e → x ≤ e

/-- R12: e is ilog2(x). -/
abbrev IsLog (x e : Nat) : Prop := 2 ^ e ≤ x ∧ x < 2 ^ (e + 1)

/-- R12: c is cdiv(a, b). -/
abbrev IsCeilDiv (a b c : Nat) : Prop := a ≤ b * c ∧ b * c < a + b

/-- R150, first branch, for P = p and D = d. -/
def SmallSize (p d x : Nat) : Prop :=
  ∃ n, ((p / d = 0 ∧ n = 3) ∨ ∃ e, IsLog (p / d) e ∧ n = max 3 (e - 6)) ∧ LeastEntry (max 24 (2 ^ n * (p / (d * 2 ^ n)))) x

/-- R150, second branch: v is N'_info, c is C, and x + 24 is the least multiple of 8·C not less than v + 24. -/
def LargeSize (p d r x : Nat) : Prop :=
  ∃ n rn v c, IsLog ((p - 24 * d) / d) (n + 5) ∧
    (2 * d * 2 ^ n * rn ≤ 2 * (p - 24 * d) + d * 2 ^ n ∧ 2 * (p - 24 * d) + d * 2 ^ n < 2 * d * 2 ^ n * (rn + 1)) ∧
    v = max 3840 (2 ^ n * rn) ∧
    (if r ≤ 512 then IsCeilDiv (v + 24) 3816 c else if 8424 < v then IsCeilDiv (v + 24) 8424 c else c = 1) ∧
    1 ≤ c ∧ (x + 24) % (8 * c) = 0 ∧ v + 24 ≤ x + 24 ∧ x + 24 < v + 24 + 8 * c

/-! ## Commands by group -/

/-- R104: the DCI2GRANT of a direction, false downlink. -/
def grantOf (dir : Bool) : Instr := if dir then .dci2GrantUl else .dci2GrantDl

/-- R104: the PIPE_INIT of a role. -/
def initOf : Role → Instr
  | .transmitter => .pipeInitTx
  | .receiver => .pipeInitRx

/-- R104, opcodes 0x01 to 0x06. -/
def isRae : Instr → Bool
  | .rateFromMcs | .modFromMcs | .slotNre | .tbs | .fillTb0 | .fillTb1 | .dci2GrantDl | .dci2GrantUl => true
  | .pipeInitTx | .pipeInitRx | .pipeSetCarrier | .pipeFree | .encode | .decode => false
  | .saSetCarrier | .saSetCoreset | .baseZero | .pdcchPut | .pdschPut | .genSignal => false

/-- R312: the error classes a command can end in. -/
def classesOf : Instr → List (BitVec 3)
  | .rateFromMcs | .modFromMcs | .pipeFree => []
  | .slotNre | .saSetCoreset | .baseZero => [1]
  | .tbs | .pdcchPut | .genSignal => [1, 4]
  | .fillTb0 | .fillTb1 | .dci2GrantDl | .dci2GrantUl => [1, 2, 4]
  | .pipeInitTx | .pipeInitRx | .pipeSetCarrier | .saSetCarrier => [1, 3]
  | .encode | .decode | .pdschPut => [1, 2, 3, 4]

/-- The executor moves next: it is named, or nothing is scheduled (log 7). -/
def ExecutorNext (s : State) : Prop := s.env.schedule.head? = some .executor ∨ s.env.schedule = []

/-- The command in flight is i and the executor moves next. -/
def Runs (i : Instr) (s : State) : Prop := ExecutorNext s ∧ s.sys.busy = true ∧ s.sys.cmd = encode i

/-- The state whose schedule has lost the turn that is taken. -/
def turnGone (s : State) : State := { s with env := { s.env with schedule := s.env.schedule.tail } }

/-- n steps lead from s to t. -/
def StepsTo : Nat → State → State → Prop
  | 0, s, t => s = t
  | n + 1, s, t => ∃ u, step s = .next u ∧ StepsTo n u t

end Sys2Proof.Claims

open Sys2Proof Sys2Proof.Machine Sys2Proof.Config Sys2Proof.Claims

/-! # Reset, decoding, the step -/

/-- R68, R351: every register of the port reads 0 after reset, and every memory element is undefined. -/
def Obligations.ResetClearsRegistersAndMemories : Prop :=
  (∀ a : BitVec 9, regRead a State.reset = 0) ∧ State.reset.pipe.state = .uninit ∧ State.reset.sa.state = .noCarrier ∧
    (∀ (a : Fin 4) (addr : Nat), bankRead State.reset.mem.slotbuf a addr = none ∧ bankRead State.reset.mem.rxbuf a addr = none) ∧
    (∀ (c : Fin 2) (i : Nat), memRead State.reset.mem.payload[c] i = none ∧ memRead State.reset.mem.rxpayload[c] i = none) ∧
    ∀ addr, memRead State.reset.mem.ce addr = none

/-- Every invariant of Safety holds after reset. -/
def Obligations.ResetIsGood : Prop := goodState State.reset = true

/-- R350, R351: a reset turn, at any time, leaves every register and memory as after power-on. Four points are the model's
choice: the hidden latched CORESET is 0 after it too (log 1; R351 calls it unspecified), the environment goes on (log 10), a
command that the reset abandons has made no collaborator call (log 19), and reset is a turn of the schedule (log 7). -/
def Obligations.ResetTurn : Prop :=
  ∀ (s : State) (rest : List Turn), s.env.schedule = .reset :: rest →
    step s = .next { State.reset with env := { s.env with schedule := rest } }

/-- R104: the words of one command of each unit, and each word with a modifier, written out from the table. -/
def Obligations.TableWordsDecode : Prop :=
  decode 0x00000001 = .ok .rateFromMcs ∧ decode 0x00000105 = .ok .fillTb1 ∧ decode 0x00000106 = .ok .dci2GrantUl ∧
    decode 0x00000110 = .ok .pipeInitRx ∧ decode 0x00000013 = .ok .encode ∧ decode 0x00000024 = .ok .pdschPut ∧
    decode 0x00000025 = .ok .genSignal

/-- R104, R106: a word decodes to a command exactly when it is the word of that command's row. -/
def Obligations.DecodeAndEncodeAgree : Prop := ∀ (w : Word) (i : Instr), decode w = .ok i ↔ w = encode i

/-- The executor's turn (it is named, or nothing is scheduled) runs the command whose word is in CMD, once that turn has left the
schedule; with no command in flight it changes nothing else (turns are the model's choice, log 7). -/
def Obligations.StepRunsTheDecodedCommand : Prop :=
  ∀ s : State, ExecutorNext s →
    (∀ i : Instr, s.sys.busy = true → decode (fetchWord s) = .ok i → step s = exec i (turnGone s)) ∧
    (s.sys.busy = false → step s = .next (turnGone s))

/-- R22, R318: a write of CMD while idle issues the word: BUSY is set, the record of the last command is cleared (turns are
the model's choice, log 7). -/
def Obligations.CmdWriteIssues : Prop :=
  ∀ (s : State) (rest : List Turn) (w : Word), s.env.schedule = .host (.regWrite 0 w) :: rest → s.sys.busy = false →
    step s = .next
      { s with
        sys := { cmd := w, busy := true, done := false, err := false, haz := s.sys.haz, errClass := 0,
                 lastOp := BitVec.ofNat 8 w.toNat, errCode := 0, errStep := 0, cmdcnt := s.sys.cmdcnt }
        env := { s.env with schedule := rest } }

/-- R102: a word is well formed when ZERO = 0, OPC is one of the 17 opcodes, and M = 0 unless OPC is 0x05, 0x06 or 0x10, and
then it is the word of a row; a word that is not executes nothing: it completes as invalid-input 0x10, step 0, and changes
nothing but the system registers. -/
def Obligations.ReservedWordExecutesNothing : Prop :=
  (∀ w : Word, (∃ i : Instr, w = encode i) ↔
    w.extractLsb' 9 23 = 0 ∧
    w.extractLsb' 0 8 ∈ [(0x01 : BitVec 8), 0x02, 0x03, 0x04, 0x05, 0x06, 0x10, 0x11, 0x12, 0x13, 0x14, 0x20, 0x21, 0x22, 0x23,
      0x24, 0x25] ∧
    (w.getLsbD 8 = true → w.extractLsb' 0 8 ∈ [(0x05 : BitVec 8), 0x06, 0x10])) ∧
  ∀ s : State, ExecutorNext s → s.sys.busy = true → (∀ i : Instr, s.sys.cmd ≠ encode i) →
    step s = .next (failed 1 0x10 0 (turnGone s))

/-! # The register port and the bulk port -/

/-- R23, R123, R124, R49, R119 to R121: the places of the fields of STATUS, ERRINFO, both packed carriers, RES_RATE, both
RX_CRC, and of the packed rows of HL_TDRA, HL_APT and HL_DMRS; every other bit reads 0. -/
def Obligations.PackedFieldsReadInPlace : Prop :=
  ∀ s : State,
    ((regRead 0x001 s).getLsbD 0 = s.sys.busy ∧ (regRead 0x001 s).getLsbD 1 = s.sys.done ∧
      (regRead 0x001 s).getLsbD 2 = s.sys.err ∧ (regRead 0x001 s).getLsbD 3 = s.sys.haz ∧
      (regRead 0x001 s).extractLsb' 4 3 = s.sys.errClass ∧ (regRead 0x001 s).getLsbD 7 = false ∧
      (regRead 0x001 s).extractLsb' 8 8 = s.sys.lastOp ∧ (regRead 0x001 s).extractLsb' 16 16 = 0) ∧
    ((regRead 0x002 s).extractLsb' 0 8 = s.sys.errCode ∧ (regRead 0x002 s).extractLsb' 8 4 = s.sys.errStep ∧
      (regRead 0x002 s).extractLsb' 12 20 = 0) ∧
    PacksCarrier (regRead 0x01E s) s.pipe.car ∧ PacksCarrier (regRead 0x023 s) s.sa.car ∧
    ((regRead 0x05C s).getLsbD 31 = s.res.rateInvalid ∧ (regRead 0x05C s).extractLsb' 0 12 = s.res.rate ∧
      (regRead 0x05C s).extractLsb' 12 19 = 0) ∧
    PacksCrc (regRead 0x0D0 s) s.rx.cw0 ∧ PacksCrc (regRead 0x0D1 s) s.rx.cw1 ∧
    ∀ (dir : Bool) (i : Nat),
      (i < 16 →
        let w := regRead (hlAddr dir (0x10 + i)) s
        let row := rowAt (hlBank dir s.args).tdra i
        w.getLsbD 0 = tdraValid row ∧ w.getLsbD 1 = tdraMap row ∧ w.extractLsb' 2 4 = tdraS row ∧
          w.extractLsb' 6 4 = tdraL row ∧ w.extractLsb' 10 22 = 0) ∧
      (i < 32 →
        let w := regRead (hlAddr dir (0x20 + i)) s
        let row := rowAt (hlBank dir s.args).apt i
        w.getLsbD 0 = aptValid row ∧ w.extractLsb' 1 2 = aptNcg row ∧ w.extractLsb' 3 12 = aptPorts row ∧
          w.extractLsb' 15 17 = 0) ∧
      (i < 4 →
        let w := regRead (hlAddr dir (0x40 + i)) s
        let row := rowAt (hlBank dir s.args).dmrs i
        w.getLsbD 0 = dmrsValid row ∧ w.getLsbD 1 = dmrsType row ∧ w.extractLsb' 2 14 = dmrsSym row ∧
          w.extractLsb' 16 16 = 0)

/-- R69, R33 to R36, R41, R43, R46: the rows of every register table stand at their addresses, bank 1 at 0x180. -/
def Obligations.TablesAtTheirAddresses : Prop :=
  ∀ s : State,
    (∀ (dir : Bool) (i : Nat),
      (i < 16 → regRead (BitVec.ofNat 9 ((if dir then 0x180 else 0x100) + 0x10 + i)) s =
        (rowAt (if dir then s.args.hl1 else s.args.hl0).tdra i).setWidth 32) ∧
      (i < 32 → regRead (BitVec.ofNat 9 ((if dir then 0x180 else 0x100) + 0x20 + i)) s =
        (rowAt (if dir then s.args.hl1 else s.args.hl0).apt i).setWidth 32) ∧
      (i < 4 → regRead (BitVec.ofNat 9 ((if dir then 0x180 else 0x100) + 0x40 + i)) s =
        (rowAt (if dir then s.args.hl1 else s.args.hl0).dmrs i).setWidth 32) ∧
      (i < 14 → regRead (BitVec.ofNat 9 ((if dir then 0x180 else 0x100) + 0x50 + i)) s =
        (rowAt (if dir then s.args.hl1 else s.args.hl0).rsv i).setWidth 32)) ∧
    (∀ i < 9, regRead (BitVec.ofNat 9 (0x070 + i)) s = rowAt s.recs.gr.prbMask i) ∧
    (∀ i < 14, regRead (BitVec.ofNat 9 (0x0A4 + i)) s = (rowAt s.recs.cfg.rsv i).setWidth 32) ∧
    ∀ i < 4, regRead (BitVec.ofNat 9 (0x0CC + i)) s = rowAt s.args.pd.msg i

/-- R69, R22 to R32, R38 to R40, R42 to R46, R49: each scalar register stands at its address and holds its own field. -/
def Obligations.ScalarRegistersAtTheirAddresses : Prop :=
  ∀ s : State, ∀ x ∈ scalarReads s, regRead (BitVec.ofNat 9 x.1) s = x.2

/-- R21, R69, R28, R29, R44, R49: while idle, a host read delivers the register and a host write of any address but CMD's
stores it. Over the table of all registers: a read-write register reads back the written bits that exist, a read-only one
ignores the write, and bits beyond a register's width read 0. An address in no row of the table ignores the write and reads 0.
No host write but that of CMD changes a system, result or unit register, the latched CORESET or a memory. -/
def Obligations.WrittenRegisterReadsBack : Prop :=
  (∀ (a : BitVec 9) (v : Word) (s : State), s.sys.busy = false →
    hostAccess (.regRead a) s = .next { s with env := { s.env with readData := some (.word (regRead a s)) } } ∧
    (a ≠ 0 → hostAccess (.regWrite a v) s = .next (regStore a v s))) ∧
  (∀ r ∈ portTable, ∀ (v : Word) (s : State),
    (regRead (BitVec.ofNat 9 r.1) s).toNat < 2 ^ r.2.1 ∧
    if r.2.2 then regRead (BitVec.ofNat 9 r.1) (regStore (BitVec.ofNat 9 r.1) v s) = (v.setWidth r.2.1).setWidth 32
    else regStore (BitVec.ofNat 9 r.1) v s = s) ∧
  (∀ (a : BitVec 9) (v : Word) (s : State), a.toNat ∉ portTable.map (fun r => r.1) → regStore a v s = s ∧ regRead a s = 0) ∧
  ∀ (a : BitVec 9) (v : Word) (s : State),
    regStore a v s = { s with args := (regStore a v s).args, recs := (regStore a v s).recs }

/-- R21, R26, R31: an idle host write of one register other than CMD leaves every other register as it was (no two addresses
alias). -/
def Obligations.WriteLeavesOtherRegisters : Prop :=
  ∀ (a b : BitVec 9) (v : Word) (s : State), a ≠ b →
    regRead b (regStore a v s) = regRead b s ∧
    (a ≠ 0 → s.sys.busy = false → ∃ t, hostAccess (.regWrite a v) s = .next t ∧ regRead b t = regRead b s)

/-- R366: while BUSY = 1 the host reads the four system registers and nothing else; any other access is refused, changes
nothing and sets HAZ. -/
def Obligations.BusyAccessIsRefused : Prop :=
  ∀ (x : HostAccess) (s : State), s.sys.busy = true →
    ∃ t, hostAccess x s = .next t ∧
      t = { s with
        sys := { s.sys with haz := s.sys.haz || (match x with | .regRead a => decide (4 ≤ a.toNat) | _ => true) }
        env := { s.env with readData := t.env.readData, portDraws := t.env.portDraws } } ∧
      ∀ a, x = .regRead a → a.toNat < 4 → t.env.readData = some (.word (regRead a s))

/-- R366: the command in flight is not disturbed by a host access: it ends as if the access had not happened, but for HAZ
and what the host read. -/
def Obligations.BusyAccessDoesNotDisturbTheCommand : Prop :=
  ∀ (x : HostAccess) (i : Instr) (s : State), s.sys.busy = true →
    ∃ s' t, hostAccess x s = .next s' ∧ exec i s = .next t ∧
      exec i s' = .next
        { t with
          sys := { t.sys with haz := s'.sys.haz }
          env := { t.env with readData := s'.env.readData, portDraws := s'.env.portDraws } }

/-- R61, R63, R70, R71, R73, R75: the host's accesses to SLOTBUF, RXBUF and CE while idle. In range, a write defines one
element and changes nothing else, and a read of a defined element returns it and changes no register and no memory. Two points
are the model's choice: what a read refused at or beyond the number of elements hands over is free, and no flag is set (log 8;
R75 and U15 say that such an access has no effect), and every address of CE, whose number of elements R70 leaves open, is in
range (log 15). -/
def Obligations.HostMovesOneSample : Prop :=
  (∀ (sp : SampleSpace) (addr : Nat) (v : Sample) (s : State), s.sys.busy = false →
    if addr < sampleElems sp s then
      (∃ t, hostAccess (.writeSample sp addr v) s = .next t ∧
        t = { s with mem := { s.mem with slotbuf := t.mem.slotbuf, rxbuf := t.mem.rxbuf } } ∧
        ∀ sp' addr', sampleRead sp' addr' t = if sp' = sp ∧ addr' = addr then some v else sampleRead sp' addr' s) ∧
      ∃ t y, hostAccess (.readSample sp addr) s = .next t ∧ ReadOnly s t ∧
        t.env.readData = some (.sample y) ∧ ∀ x, sampleRead sp addr s = some x → y = x
    else hostAccess (.writeSample sp addr v) s = .next s ∧
      ∃ t y, hostAccess (.readSample sp addr) s = .next t ∧ ReadOnly s t ∧ t.env.readData = some (.sample y)) ∧
  ∀ (addr : Nat) (v : CeElem) (s : State), s.sys.busy = false →
    (∃ t, hostAccess (.writeCe addr v) s = .next t ∧ t = { s with mem := { s.mem with ce := t.mem.ce } } ∧
      ∀ a, memRead t.mem.ce a = if a = addr then some v else memRead s.mem.ce a) ∧
    ∃ t y, hostAccess (.readCe addr) s = .next t ∧ ReadOnly s t ∧ t.env.readData = some (.ce y) ∧
      ∀ x, memRead s.mem.ce addr = some x → y = x

/-- R72, R75: bit i of a bit array is bit (i mod 32) of word (i div 32): a word written and then read at the same address comes
back, and no other bit changes; from word address 65536 = 2^21 / 32 upward the port refuses the access. Two points are the
model's choice: that the host may write RXPAYLOAD too (log 14), and that a refused read hands over a free word and sets no flag
(log 8). -/
def Obligations.BitArrayWordsPackFirstBitLow : Prop :=
  ∀ (sp : BitSpace) (addr : Nat) (v : Word) (s : State), s.sys.busy = false →
    if addr < 65536 then
      ∃ t u, hostAccess (.writeBits sp addr v) s = .next t ∧
        (∀ sp' i, memRead (bitArray sp' t) i =
          if sp' = sp ∧ i / 32 = addr then some (v.getLsbD (i % 32)) else memRead (bitArray sp' s) i) ∧
        t = { s with mem := { s.mem with payload := t.mem.payload, rxpayload := t.mem.rxpayload } } ∧
        hostAccess (.readBits sp addr) t = .next u ∧ ReadOnly t u ∧ u.env.readData = some (.word v)
    else hostAccess (.writeBits sp addr v) s = .next s ∧
      ∃ t y, hostAccess (.readBits sp addr) s = .next t ∧ ReadOnly s t ∧ t.env.readData = some (.word y)

/-! # Whole machine -/

/-- R14, R312, R364, R368: every command ends, in success or in one failure of a class the table allows it; no step of the
machine stops, whoever moves; and a command in flight has a finite BUSY interval, after which it has completed, unless a reset
abandons it first (the bound in turns is the model's, log 7). -/
def Obligations.EveryCommandEnds : Prop :=
  (∀ (i : Instr) (s : State), ∃ t, exec i s = .next t ∧
    (t.sys = (completed s).sys ∨
      ∃ cls code stp, t.sys = (failed cls code stp s).sys ∧ cls ∈ classesOf i ∧ code ∈ knownCodes ∧ cls = classOfNum code)) ∧
  (∀ s : State, ∃ t, step s = .next t) ∧
  ∀ s : State, s.sys.busy = true →
    ∃ n t, n ≤ s.env.schedule.length + 1 ∧ StepsTo n s t ∧ t.sys.busy = false ∧
      (.reset ∉ s.env.schedule → t.sys.done = true ∧ t.sys.cmdcnt = s.sys.cmdcnt + 1)

/-- R24: CMDCNT advances by 1, modulo 2^32, at each completion and is changed by nothing else but reset. -/
def Obligations.CmdcntCountsCompletions : Prop :=
  ∀ s t : State, step s = .next t →
    t.sys.cmdcnt =
      if s.env.schedule.head? = some .reset then 0
      else if (s.env.schedule.head? = some .executor ∨ s.env.schedule = []) ∧ s.sys.busy = true then s.sys.cmdcnt + 1
      else s.sys.cmdcnt

/-- R366, R23: HAZ is sticky: only reset clears it, and only a host access during BUSY sets it. -/
def Obligations.HazIsSticky : Prop :=
  ∀ s t : State, step s = .next t → s.env.schedule.head? ≠ some .reset →
    (s.sys.haz = true → t.sys.haz = true) ∧
    (s.sys.haz = false → t.sys.haz = true → s.sys.busy = true ∧ ∃ x, s.env.schedule.head? = some (.host x))

/-- R64, R221, R270: except by PIPE_FREE and reset no capacity decreases and the PIPE never goes back to an earlier lifecycle
state (PARTIAL is left by PIPE_FREE and reset only); the SA goes back to NO_CARRIER, or loses its CORESET, only by reset. -/
def Obligations.UnitsGoBackOnlyByFreeOrReset : Prop :=
  ∀ s t : State, unitsInv s = true → step s = .next t → s.env.schedule.head? ≠ some .reset →
    s.sa.capPrb.toNat ≤ t.sa.capPrb.toNat ∧ s.sa.capPorts.toNat ≤ t.sa.capPorts.toNat ∧
    (s.sa.state = .carrierSet → t.sa.state = .carrierSet) ∧ (s.sa.csValid = true → t.sa.csValid = true) ∧
    (¬ Runs .pipeFree s → s.pipe.capPrb.toNat ≤ t.pipe.capPrb.toNat ∧ s.pipe.capLayers.toNat ≤ t.pipe.capLayers.toNat ∧
      s.pipe.capCw.toNat ≤ t.pipe.capCw.toNat ∧ (s.pipe.state = .carrierSet → t.pipe.state = .carrierSet) ∧
      (s.pipe.state = .ready → t.pipe.state = .ready ∨ t.pipe.state = .carrierSet) ∧
      (s.pipe.state = .partialInit → t.pipe.state = .partialInit))

/-- R28, R29, R37, R44, R49, R84, R141: which groups of registers and which memory spaces each command may change; the
argument and HL registers, PAYLOAD, RXBUF and CE are changed by none. -/
def Obligations.CommandsChangeOnlyTheirOwn : Prop :=
  ∀ (i : Instr) (s : State), ∃ t, exec i s = .next t ∧ t.args = s.args ∧
    (i ∉ [.rateFromMcs, .modFromMcs, .slotNre, .tbs] → t.res = s.res) ∧
    (i ∉ [.fillTb0, .dci2GrantDl, .dci2GrantUl] → t.recs = s.recs) ∧
    (i ∉ [.pipeInitTx, .pipeInitRx, .pipeSetCarrier, .pipeFree] → t.pipe = s.pipe) ∧
    (i ∉ [.saSetCarrier, .saSetCoreset] → t.sa = s.sa) ∧
    (i ≠ .decode → t.rx = s.rx) ∧ t.sys.haz = s.sys.haz ∧ t.sys.cmd = s.sys.cmd ∧ t.sys.lastOp = s.sys.lastOp ∧
    t.mem.payload = s.mem.payload ∧ t.mem.rxbuf = s.mem.rxbuf ∧ t.mem.ce = s.mem.ce ∧
    (i ≠ .decode → t.mem.rxpayload = s.mem.rxpayload) ∧ t.mem.rxpayload[1] = s.mem.rxpayload[1] ∧
    (i ∉ [.encode, .saSetCarrier, .baseZero, .pdcchPut, .pdschPut, .genSignal] → t.mem.slotbuf = s.mem.slotbuf) ∧
    (i = .pdcchPut → ∀ a addr, a ≠ 0 → bankRead t.mem.slotbuf a addr = bankRead s.mem.slotbuf a addr)

/-- R96, R140: the result of a Resource Allocation Engine command is a function of the argument, Grant and configuration
registers alone, and touches neither memory nor environment. -/
def Obligations.RaeIsPure : Prop :=
  ∀ (i : Instr) (s s' : State), isRae i = true → s.args = s'.args → s.recs = s'.recs →
    ∃ t t', exec i s = .next t ∧ exec i s' = .next t' ∧ t.mem = s.mem ∧ t.env = s.env ∧ t.recs = t'.recs ∧
      (s.res = s'.res → t.res = t'.res) ∧
      (s.sys.err = s'.sys.err → s.sys.errClass = s'.sys.errClass → s.sys.errCode = s'.sys.errCode →
        s.sys.errStep = s'.sys.errStep →
        t.sys.err = t'.sys.err ∧ t.sys.errClass = t'.sys.errClass ∧ t.sys.errCode = t'.sys.errCode ∧
          t.sys.errStep = t'.sys.errStep)

/-! ## Invariants kept by every step, from every state that has them -/

/-- R62, R70: the memories keep their canonical form, and no step defines a bit at or beyond the capacity of a bit array. -/
def Obligations.StepKeepsMemoriesInOrder : Prop :=
  ∀ s t : State, step s = .next t →
    (memoriesWf s.mem = true → memoriesWf t.mem = true) ∧ (bitsInArrays s = true → bitsInArrays t = true)

/-- R221 to R224, R270 to R272, R64: the unit registers stay in agreement with the lifecycle states, every latched carrier
and CORESET stays legal and within capacity. -/
def Obligations.StepKeepsUnitsInOrder : Prop := ∀ s t : State, unitsInv s = true → step s = .next t → unitsInv t = true

/-- R81: no step writes the slot buffer outside the grid of SA_CAR ("no out-of-bounds writes"). -/
def Obligations.StepKeepsSlotInGrid : Prop :=
  ∀ s t : State, unitsInv s = true → slotInGrid s = true → step s = .next t → slotInGrid t = true

/-- R23, R310, R311, R318: BUSY excludes DONE and ERR; an error record is whole or absent; LAST_OP is the opcode of CMD. -/
def Obligations.StepKeepsStatusRecord : Prop :=
  ∀ s t : State, statusInv s.sys = true → step s = .next t → statusInv t.sys = true

/-- R44, R49, R144, R145, R149, R254: the result registers hold only values that their commands write. -/
def Obligations.StepKeepsResultRegisters : Prop :=
  ∀ s t : State, resInv s.res = true → rxInv s.rx = true → step s = .next t → resInv t.res = true ∧ rxInv t.rx = true

/-! # The Resource Allocation Engine -/

/-- R144, R145, R143: RATE_FROM_MCS and MOD_FROM_MCS succeed for every operand. RES_RATE reads the rate or the sentinel
0x80000000, RES_MOD the order or the sentinel 0; the two fail together; nothing else changes. -/
def Obligations.Lookups : Prop :=
  encode .rateFromMcs = 0x00000001 ∧ encode .modFromMcs = 0x00000002 ∧
  ∀ s : State, ∃ t u, exec .rateFromMcs s = .next t ∧ exec .modFromMcs s = .next u ∧
    t = completed { s with res := { s.res with rateInvalid := t.res.rateInvalid, rate := t.res.rate } } ∧
    u = completed { s with res := { s.res with qm := u.res.qm } } ∧
    (match mcsLookup s.args.op.table s.args.op.format s.args.op.ssType s.args.op.rntiType s.args.op.mcs with
      | none => regRead 0x05C t = 0x80000000 ∧ regRead 0x05D u = 0
      | some (qm, r) => regRead 0x05C t = BitVec.ofNat 32 r ∧ regRead 0x05D u = BitVec.ofNat 32 qm) ∧
    (t.res.rateInvalid = true ↔ u.res.qm = 0)

/-- R143, R194, R196: a lookup fails exactly on a reserved code or an index beyond the selected table (28 rows in T2, 29
in T1 and T3); otherwise the order is legal and the rate is a 12-bit number from 60 to 1896. -/
def Obligations.LookupFailsExactlyOutside : Prop :=
  ∀ (tbl : BitVec 2) (fmt : BitVec 3) (ss : BitVec 2) (rnti : BitVec 4) (mcs : BitVec 5),
    (mcsLookup tbl fmt ss rnti mcs = none ↔
      tbl = 3 ∨ 4 ≤ fmt.toNat ∨ 2 ≤ ss.toNat ∨ 8 ≤ rnti.toNat ∨ 29 ≤ mcs.toNat ∨
        (mcs = 28 ∧ tbl = 1 ∧ (fmt = 1 ∨ fmt = 3) ∧ (rnti = 0 ∨ rnti = 5 ∨ rnti = 6))) ∧
    ∀ qm r, mcsLookup tbl fmt ss rnti mcs = some (qm, r) → OrderLegal qm ∧ 60 ≤ r ∧ r ≤ 1896

/-- R149: SLOT_NRE, every check and the counts. -/
def Obligations.SlotNre : Prop :=
  encode .slotNre = 0x00000003 ∧
  ∀ s : State,
    if nPrb s.recs.gr.prbMask = 0 then exec .slotNre s = .next (failed 1 0x15 0 s)
    else if s.recs.gr.symL = 0 ∨ 14 < s.recs.gr.symS.toNat + s.recs.gr.symL.toNat then
      exec .slotNre s = .next (failed 1 0x16 0 s)
    else if GroupsIllegal s.recs.cfg.dmrsType s.recs.gr.ncg then exec .slotNre s = .next (failed 1 0x24 0 s)
    else ∃ t, exec .slotNre s = .next t ∧
      t = completed { s with res := { s.res with nre := t.res.nre, nreAvail := t.res.nreAvail } } ∧
      t.res.nre.toNat = nreEff (patternOf s.recs) ∧ t.res.nreAvail.toNat = nreAvail (patternOf s.recs)

/-- R148, R147: the available count is the number of allocated blocks times the number of (symbol, subcarrier) pairs of the
span that are neither DMRS of a reserved group nor reserved; the effective count caps the second factor at 156. -/
def Obligations.CountsAreCountsOfPairs : Prop :=
  ∀ p : Pattern,
    let pairs := (((List.range' p.symS p.symL).product (List.range 12)).filter fun x =>
      !((p.dmrsSym.getLsbD x.1 && (List.range p.ncg).any fun g => (groupSc p.dmrsType g).contains x.2) ||
        (rowAt p.rsv x.1).getLsbD x.2)).length
    nreAvail p = ((List.range 288).filter (prbBit p.prbMask)).length * pairs ∧
      nreEff p = ((List.range 288).filter (prbBit p.prbMask)).length * min 156 pairs

/-- R151: TBS, every check, the failure that writes 0, and the size. -/
def Obligations.TbsCommand : Prop :=
  encode .tbs = 0x00000004 ∧
  ∀ s : State,
    if ¬ OrderLegal s.args.op.qm.toNat ∨ s.args.op.nlayers.toNat < 1 ∨ 4 < s.args.op.nlayers.toNat then
      exec .tbs s = .next (failed 1 0x18 0 s)
    else if s.args.op.nre = 0 ∨ s.args.op.r = 0 then
      exec .tbs s = .next (failed 4 0x81 0 { s with res := { s.res with tbs := 0 } })
    else ∃ t v, exec .tbs s = .next t ∧ t = completed { s with res := { s.res with tbs := t.res.tbs } } ∧
      tbsOf s.args.op.nre.toNat (if s.args.op.sc = 2 then 2 else if s.args.op.sc = 3 then 4 else 1) s.args.op.r.toNat
        s.args.op.qm.toNat s.args.op.nlayers.toNat = some v ∧ t.res.tbs.toNat = v

/-- R152 (a): for fixed scaling, rate, order and layers the size does not decrease with the element count. -/
def Obligations.TbsIsMonotone : Prop :=
  ∀ nre nre' sden r qm nu x y : Nat, sden = 1 ∨ sden = 2 ∨ sden = 4 → nre ≤ nre' →
    tbsOf nre sden r qm nu = some x → tbsOf nre' sden r qm nu = some y → x ≤ y

/-- R150, R152 (b), (c), (d), R198: there is no size exactly when P = 0; otherwise the size is that of the first branch of R150
when N_info ≤ 3824 and that of the second branch above it; it is a multiple of 8 and at least 24, and an entry of the table in
the first branch. QuantTable(v) is the smallest entry not less than v. -/
def Obligations.TbsIsQuantised : Prop :=
  (∀ v, 24 ≤ v → v ≤ 3824 → LeastEntry v (quantTable v)) ∧
  ∀ nre sden r qm nu : Nat, sden = 1 ∨ sden = 2 ∨ sden = 4 →
    (tbsOf nre sden r qm nu = none ↔ nre * r * qm * nu = 0) ∧
    ∀ x, tbsOf nre sden r qm nu = some x →
      x % 8 = 0 ∧ 24 ≤ x ∧
      if nre * r * qm * nu ≤ 3824 * (2048 * sden) then x ∈ quantEntries ∧ SmallSize (nre * r * qm * nu) (2048 * sden) x
      else LargeSize (nre * r * qm * nu) (2048 * sden) r x

/-- R153, R227: FILL_TB.0, every check with its step, and the five registers of TB[0] it commits; FILL_TB.1 always ends as
unsupported-configuration UC_CW1, step 0, and writes nothing. -/
def Obligations.FillTb : Prop :=
  encode .fillTb0 = 0x00000005 ∧ encode .fillTb1 = 0x00000105 ∧
  ∀ s : State, exec .fillTb1 s = .next (failed 2 0x41 0 s) ∧
    match mcsLookup s.recs.cfg.mcsTable s.recs.gr.format s.recs.gr.ssType s.recs.gr.rntiType s.args.op.mcs with
    | none => exec .fillTb0 s = .next (failed 4 0x80 1 s)
    | some (qm, r) =>
      if nPrb s.recs.gr.prbMask = 0 then exec .fillTb0 s = .next (failed 1 0x15 2 s)
      else if s.recs.gr.symL = 0 ∨ 14 < s.recs.gr.symS.toNat + s.recs.gr.symL.toNat then
        exec .fillTb0 s = .next (failed 1 0x16 2 s)
      else if GroupsIllegal s.recs.cfg.dmrsType s.recs.gr.ncg then exec .fillTb0 s = .next (failed 1 0x24 2 s)
      else if s.recs.gr.nlayers.toNat < 1 ∨ 4 < s.recs.gr.nlayers.toNat then exec .fillTb0 s = .next (failed 1 0x24 2 s)
      else if nreEff (patternOf s.recs) = 0 then exec .fillTb0 s = .next (failed 4 0x81 3 s)
      else ∃ t v, exec .fillTb0 s = .next t ∧
        t = completed { s with recs := { s.recs with tb0 := { t.recs.tb0 with en := s.recs.tb0.en, rv := s.recs.tb0.rv } } } ∧
        tbsOf (nreEff (patternOf s.recs)) 1 r qm s.recs.gr.nlayers.toNat = some v ∧
        t.recs.tb0.mcs = s.args.op.mcs ∧ t.recs.tb0.qm.toNat = qm ∧ t.recs.tb0.r.toNat = r ∧ t.recs.tb0.tbs.toNat = v ∧
        t.recs.tb0.nbits.toNat = nreAvail (patternOf s.recs) * qm * s.recs.gr.nlayers.toNat

/-- R154 to R163, R165: both variants of DCI2GRANT. The first failing check in the order of the rules decides class, code
and step, and then only the two valid bits change; with none failing, all outputs are written together. -/
def Obligations.Dci2Grant : Prop :=
  encode .dci2GrantDl = 0x00000006 ∧ encode .dci2GrantUl = 0x00000106 ∧
  ∀ (s : State) (dir : Bool),
    match dciError dir s.args with
    | some (cls, code, stp) =>
      exec (grantOf dir) s = .next (failed cls code stp { s with recs := recordsInvalid s.recs })
    | none =>
      ∃ t, exec (grantOf dir) s = .next t ∧
        t = completed { s with recs := t.recs } ∧ DciWrites dir s.args t.recs

/-- R205, R204: RIV and RivDecode are inverse to each other, and the decoder refuses exactly the values from
N(N+1)/2 upward. -/
def Obligations.RivIsABijection : Prop :=
  ∀ n : Nat, 1 ≤ n → n ≤ 275 →
    (∀ start len, 1 ≤ len → start + len ≤ n → rivDecode n (rivEncode n start len) = some (start, len)) ∧
    (∀ riv start len, rivDecode n riv = some (start, len) → 1 ≤ len ∧ start + len ≤ n ∧ rivEncode n start len = riv) ∧
    ∀ riv, rivDecode n riv = none ↔ n * (n + 1) / 2 ≤ riv

/-- R164: after a successful DCI2GRANT, the same command with DCI_FDA = RIV(N, GR_RB_START, GR_RB_LEN) succeeds and
reproduces every output register. -/
def Obligations.GrantRoundTrip : Prop :=
  ∀ (s : State) (dir : Bool), dciError dir s.args = none →
    ∃ t u, exec (grantOf dir) s = .next t ∧
      exec (grantOf dir)
        { t with args := { t.args with dci := { t.args.dci with
            fda := BitVec.ofNat 16 (rivEncode t.args.car.nprb.toNat t.recs.gr.rbStart.toNat t.recs.gr.rbLen.toNat) } } } =
          .next u ∧
      u.recs = t.recs ∧ u.sys.cmdcnt = s.sys.cmdcnt + 2 ∧ t.recs.gr.valid = true

/-- R162, R229: the grant invariant. What a successful DCI2GRANT writes is jointly consistent: TB_NBITS is the coded length
recomputed from the registers and not 0, and every allocated block lies in the carrier. -/
def Obligations.GrantIsConsistent : Prop :=
  ∀ (s : State) (dir : Bool), dciError dir s.args = none →
    ∃ t, exec (grantOf dir) s = .next t ∧
      t.recs.tb0.nbits.toNat = codedLength t.recs ∧ codedLength t.recs ≠ 0 ∧
      t.recs.gr.nreAvail.toNat = (posList (patternOf t.recs)).length ∧ OrderLegal t.recs.tb0.qm.toNat ∧
      t.recs.tb0.tbs.toNat ≠ 0 ∧ t.recs.tb0.tbs.toNat % 8 = 0 ∧
      (∀ n ∈ prbSet t.recs.gr.prbMask, n < s.args.car.nprb.toNat) ∧ prbSet t.recs.gr.prbMask ≠ [] ∧
      popcount t.recs.gr.ports = t.recs.gr.nlayers.toNat ∧ t.recs.gr.nlayers.toNat ≤ s.args.car.nports.toNat ∧
      t.recs.tb1.en = false

/-! # Positions and mappers -/

/-- R228: the data positions are as many as the available elements, in strictly rising order (symbols first, then
subcarriers), so none appears twice. -/
def Obligations.PositionsRiseAndFill : Prop :=
  ∀ p : Pattern, (posList p).length = nreAvail p ∧
    (posList p).Pairwise fun x y => x.1 < y.1 ∨ (x.1 = y.1 ∧ x.2 < y.2)

/-- R228, R277: which elements are data positions; and no DMRS position is one, when every port's group is reserved. -/
def Obligations.DataAvoidsReferenceSignals : Prop :=
  ∀ (p : Pattern) (ports : BitVec 12),
    (∀ l k, (l, k) ∈ posList p ↔
      p.symS ≤ l ∧ l < p.symS + p.symL ∧ k / 12 < 288 ∧ prbBit p.prbMask (k / 12) = true ∧ excl p l (k % 12) = false) ∧
    ((∀ q ∈ setBits ports, portIllegal p.dmrsType p.ncg q = false) →
      ∀ j q l k, (j, q, l, k) ∈ dmrsPositions p ports → (l, k) ∉ posList p)

/-- R236 to R240: for each order the mapper is one-to-one on groups of Qm bits, and its values are odd integers of
magnitude below 2^(Qm/2). -/
def Obligations.MapperIsOneToOne : Prop :=
  ∀ qm, OrderLegal qm → ∀ b b' : Nat → Bool,
    (gridPoint qm b = gridPoint qm b' → ∀ j < qm, b j = b' j) ∧
    (gridPoint qm b).1 % 2 = 1 ∧ (gridPoint qm b).2 % 2 = 1 ∧
    |(gridPoint qm b).1| < 2 ^ (qm / 2) ∧ |(gridPoint qm b).2| < 2 ^ (qm / 2)

/-- R255, for any numerics with the two laws of R16: under a negation that flips hard decisions (an assumption of the statement,
which R255 needs and R253 does not list among the laws), the receive path (layer de-mapping, soft demodulation, descrambling)
of what the transmit path made of coded bits b gives soft bits whose hard decisions are b. -/
def Obligations.ReceiveInvertsTransmit : Prop :=
  ∀ (nm : Numerics) (qm nu m : Nat) (b c : List Bool), OrderLegal qm → 1 ≤ nu → (∀ x, nm.hard (nm.neg x) = !nm.hard x) →
    b.length = m * qm * nu → c.length = m * qm * nu →
    (descramble nm
      (softBits nm qm (layersToStream nm
        ((List.range nu).map fun lam => layerOf nm (modulate nm qm (scramble b c)) nu lam m) nu m)) c).map nm.hard = b

/-! # The Data Pipe -/

/-- R222: both variants of PIPE_INIT: the lifecycle check, the argument check, the failed allocation (PARTIAL) and the
success. Which allocation succeeds is the model's choice within R17 and U4 (log 11): within the maxima, every one the
environment does not script as refused. -/
def Obligations.PipeInit : Prop :=
  encode .pipeInitTx = 0x00000010 ∧ encode .pipeInitRx = 0x00000110 ∧
  ∀ (s : State) (role : Role),
    exec (initOf role) s = .next
      (if s.pipe.state ≠ .uninit then failed 1 0x11 0 s
       else if s.args.pa.maxPrb.toNat < 1 ∨ 275 < s.args.pa.maxPrb.toNat ∨ s.args.pa.maxLayers.toNat < 1 ∨
           4 < s.args.pa.maxLayers.toNat ∨ s.args.pa.maxCw.toNat < 1 ∨ 2 < s.args.pa.maxCw.toNat then failed 1 0x21 0 s
       else if s.env.answers.alloc.head? = some false then
         failed 3 0x64 0 { allocAsked s with pipe := { s.pipe with role := role, state := .partialInit } }
       else completed { allocAsked s with pipe :=
         { state := .ready, role := role, capPrb := s.args.pa.maxPrb, capLayers := s.args.pa.maxLayers,
           capCw := s.args.pa.maxCw, evmEn := s.args.pa.measureEvm, car := { nprb := 0, mu := 0, cp := false, nports := 0 } } })

/-- R223, R93: PIPE_SET_CARRIER: the checks, the growth, the failed growth that changes nothing, and the success without
growth. Capacities are those of a machine in order, so every request is within the maxima of R8. Which growth
succeeds is the model's choice within R17 and U4 (log 11); that RXBUF keeps its elements is DEDUCED (log 16). -/
def Obligations.PipeSetCarrier : Prop :=
  encode .pipeSetCarrier = 0x00000011 ∧
  ∀ s : State, unitsInv s = true →
    exec .pipeSetCarrier s = .next
      (if s.pipe.state ≠ .ready ∧ s.pipe.state ≠ .carrierSet then failed 1 0x11 0 s
       else if CarrierIllegal s.args.car then failed 1 0x12 0 s
       else if s.pipe.capPrb.toNat < s.args.car.nprb.toNat then
         if s.env.answers.alloc.head? = some false then failed 3 0x64 0 (allocAsked s)
         else completed { allocAsked s with
           pipe := { s.pipe with capPrb := s.args.car.nprb, car := s.args.car, state := .carrierSet } }
       else completed { s with pipe := { s.pipe with car := s.args.car, state := .carrierSet } })

/-- R224: PIPE_FREE succeeds in every state, clears the seven PIPE registers and touches nothing else. -/
def Obligations.PipeFree : Prop :=
  encode .pipeFree = 0x00000012 ∧
  ∀ s : State, exec .pipeFree s = .next (completed { s with pipe :=
    { state := .uninit, role := .transmitter, capPrb := 0, capLayers := 0, capCw := 0, evmEn := false,
      car := { nprb := 0, mu := 0, cp := false, nports := 0 } } })

/-- R225, R229, R230: the checks of ENCODE: the first failing line decides, nothing else changes; with no codeword enabled
it succeeds and writes nothing. -/
def Obligations.EncodeChecks : Prop :=
  encode .encode = 0x00000013 ∧
  ∀ s : State,
    (∀ cls code, checkGrantError .transmitter s = some (cls, code) → exec .encode s = .next (failed cls code 0 s)) ∧
    (checkGrantError .transmitter s = none → s.recs.tb0.en = false → exec .encode s = .next (completed s)) ∧
    (checkGrantError .transmitter s = none → s.recs.tb0.en = true →
      ∀ cls code, checkCodewordError .transmitter s = some (cls, code) → exec .encode s = .next (failed cls code 0 s))

/-- R230, R231, R232, R240 to R245: ENCODE under a conforming grant with answering collaborators succeeds: every layer's
symbols stand at the positions of the grant, no other element changes, and exactly the two calls were made. -/
def Obligations.EncodeCompletes : Prop :=
  ∀ (s : State) (b c : List Bool), unitsInv s = true → checkGrantError .transmitter s = none → s.recs.tb0.en = true →
    checkCodewordError .transmitter s = none → s.env.answers.fecEncode.head? = some (some b) →
    s.env.answers.seqGen.head? = some (some c) → SequenceAgrees s c → b.length = codedLength s.recs →
    c.length = codedLength s.recs →
    ∃ t a, exec .encode s = .next t ∧ t = completed { s with mem := { s.mem with slotbuf := t.mem.slotbuf }, env := t.env } ∧
      DataPlaced s t b c ∧ SlotOtherwise s t (DataElement s) ∧ IsPayload s a ∧
      t.env.history = s.env.history ++ encodeCalls s a b c

/-- R230, R250, R231, R232, R252 to R254, R330: a failed ENCODE or DECODE leaves every buffer and every register but the system
registers untouched, with step 0, whatever the collaborators answer; a collaborator that reports failure or answers in the
wrong shape, every earlier one having answered in shape, gives CI_COLLAB (scripted answers are the model's form, log 6). -/
def Obligations.FailedTransferLeavesAll : Prop :=
  ∀ (s : State) (i : Instr), i = .encode ∨ i = .decode →
    ∃ t, exec i s = .next t ∧
      (t.sys = (completed s).sys ∨ ∃ cls code, t = { failed cls code 0 s with env := t.env }) ∧
      (i = .encode → checkGrantError .transmitter s = none → s.recs.tb0.en = true →
        checkCodewordError .transmitter s = none → EncodeCollabFails s → t = { failed 4 0x82 0 s with env := t.env }) ∧
      (i = .decode → checkGrantError .receiver s = none → s.recs.tb0.en = true →
        checkCodewordError .receiver s = none → DecodeCollabFails s → t = { failed 4 0x82 0 s with env := t.env })

/-- R225, R229, R250, R254: the checks of DECODE (line 4 and PAY_LEN0 do not apply), and the commit with no codeword. -/
def Obligations.DecodeChecks : Prop :=
  encode .decode = 0x00000014 ∧
  ∀ s : State,
    (∀ cls code, checkGrantError .receiver s = some (cls, code) → exec .decode s = .next (failed cls code 0 s)) ∧
    (checkGrantError .receiver s = none → s.recs.tb0.en = false →
      exec .decode s = .next (completed { s with rx :=
        { cw0 := { ok := false, valid := false, evm := 0, len := 0 }, cw1 := { ok := false, valid := false, evm := 0, len := 0 },
          evmValid := false, tctx := s.args.en.tctx } })) ∧
    (checkGrantError .receiver s = none → s.recs.tb0.en = true →
      ∀ cls code, checkCodewordError .receiver s = some (cls, code) → exec .decode s = .next (failed cls code 0 s))

/-- R250 to R254: DECODE under a conforming grant with answering collaborators succeeds: the received samples at the data
positions go to the equaliser, the descrambled soft bits of its answer to the decoder; the payload bits, their length and
the CRC result are committed, the EVM if enabled; a failed CRC is no error; later payload bits and all else are as before.
That the equaliser is given GR_MAP_TYPE (R40) after its list is the model's choice (log 17). -/
def Obligations.DecodeCompletes : Prop :=
  ∀ (s : State) (xh : List (List Sample)) (c bits : List Bool) (ok : Bool),
    checkGrantError .receiver s = none → s.recs.tb0.en = true → checkCodewordError .receiver s = none →
    s.env.answers.equalize.head? = some (some xh) → xh.length = s.recs.gr.nlayers.toNat →
    (∀ x ∈ xh, x.length = (posList (patternOf s.recs)).length) → s.env.answers.seqGen.head? = some (some c) →
    SequenceAgrees s c → c.length = codedLength s.recs → s.env.answers.fecDecode.head? = some (some (bits, ok)) →
    bits.length = s.recs.tb0.tbs.toNat →
    ∃ (t : State) (r : List (List Sample)) (dh : List Sample) (llr : List Llr), exec .decode s = .next t ∧
      t = completed { s with rx := t.rx, mem := { s.mem with rxpayload := t.mem.rxpayload }, env := t.env } ∧
      Received s r ∧ Unmapped s xh dh ∧ SoftBitsOf s dh c llr ∧
      t.rx = { cw0 := { ok := ok, valid := true, len := s.recs.tb0.tbs,
                        evm := if s.pipe.evmEn then num.evm s.recs.tb0.qm.toNat dh else 0 }
               cw1 := { ok := false, valid := false, evm := 0, len := 0 }
               evmValid := s.pipe.evmEn
               tctx := s.args.en.tctx } ∧
      (∀ i, memRead t.mem.rxpayload[0] i = (bits[i]?).or (memRead s.mem.rxpayload[0] i)) ∧
      t.mem.rxpayload[1] = s.mem.rxpayload[1] ∧
      t.env.history = s.env.history ++ decodeCalls s r xh c llr (bits, ok)

/-! # The Slot Assembler -/

/-- R271, R93: SA_SET_CARRIER: the check, the growth of both capacities, the failed growth that changes nothing; a success
makes the whole slot buffer undefined and keeps the CORESET. Which growth succeeds is the model's choice within R17 and U4
(log 11). -/
def Obligations.SaSetCarrier : Prop :=
  encode .saSetCarrier = 0x00000020 ∧
  ∀ s : State, unitsInv s = true →
    let np := if s.sa.capPrb.toNat < s.args.car.nprb.toNat then s.args.car.nprb else s.sa.capPrb
    let na := if s.sa.capPorts.toNat < s.args.car.nports.toNat then s.args.car.nports else s.sa.capPorts
    let grows := s.sa.capPrb.toNat < s.args.car.nprb.toNat ∨ s.sa.capPorts.toNat < s.args.car.nports.toNat
    let undef := { s.mem with slotbuf := Vector.replicate 4 [] }
    exec .saSetCarrier s = .next
      (if CarrierIllegal s.args.car then failed 1 0x12 0 s
       else if grows then
         if s.env.answers.alloc.head? = some false then failed 3 0x64 0 (allocAsked s)
         else completed { allocAsked s with
           sa := { s.sa with capPrb := np, capPorts := na, car := s.args.car, state := .carrierSet }, mem := undef }
       else completed { s with sa := { s.sa with car := s.args.car, state := .carrierSet }, mem := undef })

/-- R272: SA_SET_CORESET: the check, and the copy of the five CS_* registers; allowed in either SA state. -/
def Obligations.SaSetCoreset : Prop :=
  encode .saSetCoreset = 0x00000021 ∧
  ∀ s : State, exec .saSetCoreset s = .next
    (if s.args.cs.dur = 0 ∨ (s.args.cs.freqLo = 0 ∧ s.args.cs.freqHi = 0) then failed 1 0x22 0 s
     else completed { s with sa := { s.sa with csValid := true, coreset := s.args.cs } })

/-- R273, R16: BASE_ZERO: every element of the current carrier's slot buffer is Num.zero afterwards, exactly zero magnitude;
every other is as before. -/
def Obligations.BaseZero : Prop :=
  encode .baseZero = 0x00000022 ∧ num.magnitudeSq num.zero = 0 ∧
  ∀ s : State,
    if s.sa.state = .noCarrier then exec .baseZero s = .next (failed 1 0x11 0 s)
    else ∃ t, exec .baseZero s = .next t ∧ t = completed { s with mem := { s.mem with slotbuf := t.mem.slotbuf } } ∧
      ∀ a < 4, ∀ addr, bankRead t.mem.slotbuf a addr =
        if a < s.sa.car.nports.toNat ∧ addr < nsymb s.sa.car.cp * (12 * s.sa.car.nprb.toNat) then some num.zero
        else bankRead s.mem.slotbuf a addr

/-- R274, R275: PDCCH_PUT with answering collaborators whose positions lie in the control region: both lists are written
to antenna 0, the later entry winning, and nothing else. -/
def Obligations.PdcchPutCompletes : Prop :=
  encode .pdcchPut = 0x00000023 ∧
  ∀ (s : State) (w w' : List (Nat × Nat × Sample)), s.sa.state = .carrierSet → s.sa.csValid = true →
    s.args.pd.msgLen.toNat ≤ 128 → s.env.answers.pdcchDmrs.head? = some (some w) →
    s.env.answers.pdcchEncode.head? = some (some w') →
    (∀ e ∈ w ++ w', e.1 < s.sa.coreset.dur.toNat ∧ e.2.1 < 12 * s.sa.car.nprb.toNat ∧
      (s.sa.coreset.freqHi ++ s.sa.coreset.freqLo).getLsbD (e.2.1 / 12 / 6) = true) →
    ∃ t, exec .pdcchPut s = .next t ∧ t = completed { s with mem := { s.mem with slotbuf := t.mem.slotbuf }, env := t.env } ∧
      (∀ addr, bankRead t.mem.slotbuf 0 addr =
        (lastEntry s.sa.car.nprb.toNat (w ++ w') addr).or (bankRead s.mem.slotbuf 0 addr)) ∧
      (∀ a addr, a ≠ 0 → bankRead t.mem.slotbuf a addr = bankRead s.mem.slotbuf a addr) ∧
      t.env.history = s.env.history ++
        [ .pdcchDmrs s.sa.coreset s.sa.car s.args.en.cellId s.args.en.slot s.args.pd.aggr s.args.pd.ncce (some w),
          .pdcchEncode s.sa.coreset s.sa.car ((List.range s.args.pd.msgLen.toNat).map fun i =>
              (rowAt s.args.pd.msg (i / 32)).getLsbD (i % 32)) s.args.pd.msgLen.toNat
            s.args.en.rnti s.args.en.cellId s.args.en.slot s.args.pd.aggr s.args.pd.ncce (some w') ]

/-- R276, R277: PDSCH_PUT under a conforming grant with answering collaborators: the DMRS and then the data stand in the
slot buffer, nothing else changes, and the three calls were made in that order. That Dmrs.vals is given GR_MAP_TYPE (R40) after
its list is the model's choice (log 17). -/
def Obligations.PdschPutCompletes : Prop :=
  encode .pdschPut = 0x00000024 ∧
  ∀ (s : State) (v : List Sample) (b c : List Bool), unitsInv s = true → checkGrantError .transmitter s = none →
    s.recs.tb0.en = true → checkCodewordError .transmitter s = none → s.env.answers.dmrsVals.head? = some (some v) →
    v.length = (dmrsPositions (patternOf s.recs) s.recs.gr.ports).length →
    s.env.answers.fecEncode.head? = some (some b) → s.env.answers.seqGen.head? = some (some c) → SequenceAgrees s c →
    b.length = codedLength s.recs → c.length = codedLength s.recs →
    ∃ t a, exec .pdschPut s = .next t ∧
      t = completed { s with mem := { s.mem with slotbuf := t.mem.slotbuf }, env := t.env } ∧
      DataPlaced s t b c ∧ DmrsPlaced s t v ∧
      SlotOtherwise s t (fun x addr => DataElement s x addr ∨ DmrsElement s x addr) ∧ IsPayload s a ∧
      t.env.history = s.env.history ++
        (.dmrsVals s.args.en.cellId s.args.en.slot s.recs.gr.dir s.recs.cfg.dmrsType s.recs.gr.dmrsPtr s.recs.gr.ncg
          ((dmrsPositions (patternOf s.recs) s.recs.gr.ports).map fun q => q.2) s.recs.gr.mapType (some v) :: encodeCalls s a b c)

/-- R274, R276, R277, R330: the checks of the puts. PDCCH_PUT: the lifecycle and the message length with step 0; a failed call
or a position outside the control region with the step it belongs to, step 2 leaving exactly step 1's elements. PDSCH_PUT:
CheckGrant's errors and the DMRS values (a failed call, or a wrong count) carry step 1 and write nothing; CheckCodeword's errors
and the collaborators of ENCODE carry step 2 and leave exactly the DMRS; with no codeword enabled the DMRS alone is placed.
Without a carrier in the SA PDSCH_PUT ends as R225 line 4 says, not as R270 does: the model's choice (log 18). -/
def Obligations.PutChecks : Prop :=
  (∀ s : State,
    (s.sa.state = .noCarrier ∨ s.sa.csValid = false → exec .pdcchPut s = .next (failed 1 0x11 0 s)) ∧
    (s.sa.state = .carrierSet → s.sa.csValid = true →
      (128 < s.args.pd.msgLen.toNat → exec .pdcchPut s = .next (failed 1 0x1F 0 s)) ∧
      (s.args.pd.msgLen.toNat ≤ 128 →
        (s.env.answers.pdcchDmrs.head? = some none →
          ∃ t, exec .pdcchPut s = .next t ∧ t = { failed 4 0x82 1 s with env := t.env }) ∧
        ∀ w, s.env.answers.pdcchDmrs.head? = some (some w) →
          ((∃ e ∈ w, ¬ InRegion s e) →
            ∃ t, exec .pdcchPut s = .next t ∧ t = { failed 1 0x23 1 s with env := t.env }) ∧
          ((∀ e ∈ w, InRegion s e) →
            (s.env.answers.pdcchEncode.head? = some none →
              ∃ t, exec .pdcchPut s = .next t ∧ t = { failed 4 0x82 2 s with mem := pdcchPlaced s w, env := t.env }) ∧
            ∀ w', s.env.answers.pdcchEncode.head? = some (some w') → (∃ e ∈ w', ¬ InRegion s e) →
              ∃ t, exec .pdcchPut s = .next t ∧ t = { failed 1 0x23 2 s with mem := pdcchPlaced s w, env := t.env })))) ∧
  ∀ s : State,
    (∀ cls code, checkGrantError .transmitter s = some (cls, code) → exec .pdschPut s = .next (failed cls code 1 s)) ∧
    (checkGrantError .transmitter s = none →
      (∀ x, s.env.answers.dmrsVals.head? = some x →
        (∀ v, x = some v → v.length ≠ (dmrsPositions (patternOf s.recs) s.recs.gr.ports).length) →
        ∃ t, exec .pdschPut s = .next t ∧ t = { failed 4 0x82 1 s with env := t.env }) ∧
      ∀ v, s.env.answers.dmrsVals.head? = some (some v) →
        v.length = (dmrsPositions (patternOf s.recs) s.recs.gr.ports).length →
        ∃ t, exec .pdschPut s = .next t ∧
          (s.recs.tb0.en = false → t = { completed s with mem := dmrsPlaced s v, env := t.env }) ∧
          (s.recs.tb0.en = true →
            (∀ cls code, checkCodewordError .transmitter s = some (cls, code) →
              t = { failed cls code 2 s with mem := dmrsPlaced s v, env := t.env }) ∧
            (checkCodewordError .transmitter s = none → EncodeCollabFails s →
              t = { failed 4 0x82 2 s with mem := dmrsPlaced s v, env := t.env })))

/-- R281: a put that fails with step 0 or 1 has written nothing; one that fails with step 2 has written all of step 1's
elements and none of step 2's; no put fails otherwise. -/
def Obligations.FailedPutLeavesStepOne : Prop :=
  ∀ (i : Instr) (s : State), i = .pdcchPut ∨ i = .pdschPut →
    ∃ t, exec i s = .next t ∧
      (t.sys = (completed s).sys ∨
        ∃ cls code stp, t.sys = (failed cls code stp s).sys ∧
          ((stp.toNat ≤ 1 ∧ t.mem = s.mem) ∨
            (stp = 2 ∧ ∃ ws,
              t.mem = { s.mem with slotbuf := slotWriteAll s.sa.car.nprb.toNat s.mem.slotbuf ws } ∧
              ((i = .pdcchPut ∧ ∃ w, pdcchDmrsAnswer s = some w ∧ ws = pdcchWrites w) ∨
                (i = .pdschPut ∧ ∃ v, dmrsValsAnswer s = some v ∧
                  ws = dmrsWrites (dmrsPositions (patternOf s.recs) s.recs.gr.ports) v)))))

/-- R279, R280: GEN_SIGNAL. Without a carrier it fails; with transforms that succeed each antenna's grid, phase corrected,
is handed over in ascending order and the slot buffer is undefined afterwards; a refused transform of antenna a gives
CI_COLLAB with step a + 1 and the same loss of the buffer. -/
def Obligations.GenSignal : Prop :=
  encode .genSignal = 0x00000025 ∧
  ∀ s : State,
    (s.sa.state = .noCarrier → exec .genSignal s = .next (failed 1 0x11 0 s)) ∧
    (s.sa.state = .carrierSet →
      s.env.answers.transform.take s.sa.car.nports.toNat = List.replicate s.sa.car.nports.toNat true →
      ∃ (t : State) (grids : Nat → List (List Sample)), exec .genSignal s = .next t ∧
        t = completed { s with mem := { s.mem with slotbuf := Vector.replicate 4 [] }, env := t.env } ∧
        t.env.history = s.env.history ++
          (List.range s.sa.car.nports.toNat).map (fun a => CollabEvent.transform a s.sa.car (grids a) true) ∧
        ∀ a < s.sa.car.nports.toNat, PhasedGrid s a (grids a)) ∧
    (s.sa.state = .carrierSet → ∀ a < s.sa.car.nports.toNat,
      s.env.answers.transform.take (a + 1) = List.replicate a true ++ [false] →
      ∃ t, exec .genSignal s = .next t ∧
        t = { failed 4 0x82 (BitVec.ofNat 4 (a + 1)) s with
              mem := { s.mem with slotbuf := Vector.replicate 4 [] }, env := t.env } ∧
        t.env.history.length = s.env.history.length + a + 1)
end

