-- ==== Sys2Proof/Laws/Bits.lean ====
section
/-! SUPPORT. Laws of the bit-field helpers and of register tables. -/

namespace Sys2Proof.Machine

@[simp] theorem getLsbD_bitsOf (n : Nat) (f : Nat → Bool) (i : Nat) :
    (bitsOf n f).getLsbD i = (decide (i < n) && f i) := by
  induction n with
  | zero => simp [bitsOf]
  | succ n ih =>
    rw [bitsOf, BitVec.getLsbD_cons]
    by_cases h : i = n
    · subst h; simp
    · rw [if_neg h, ih]
      rcases Nat.lt_or_ge i n with h' | h'
      · simp [h', Nat.lt_succ_of_lt h']
      · have : ¬ i < n + 1 := by omega
        simp [this, Nat.not_lt.mpr h']

@[simp] theorem mem_setBits {n : Nat} (v : BitVec n) (i : Nat) : i ∈ setBits v ↔ v.getLsbD i = true := by
  simp only [setBits, List.mem_filter, List.mem_range, and_iff_right_iff_imp]
  exact fun h => BitVec.lt_of_getLsbD h

theorem popcount_le {n : Nat} (v : BitVec n) : popcount v ≤ n := by
  simpa [popcount, setBits] using List.length_filter_le (fun i => v.getLsbD i) (List.range n)

@[simp] theorem rowAt_set_same {n k i : Nat} (t : Vector (BitVec k) n) (v : BitVec k) (h : i < n) :
    rowAt (t.setIfInBounds i v) i = v := by
  simp [rowAt, h]

@[simp] theorem rowAt_set_ne {n k i j : Nat} (t : Vector (BitVec k) n) (v : BitVec k) (h : i ≠ j) :
    rowAt (t.setIfInBounds i v) j = rowAt t j := by
  simp [rowAt, Vector.getElem?_setIfInBounds_ne, h]

theorem flag_roundtrip (v : BitVec 1) : BitVec.ofBool (v.getLsbD 0) = v := by
  revert v; decide

/-! ## Carriers -/

/-- Two concatenations are equal exactly when their parts are. -/
theorem append_inj {m n : Nat} {a c : BitVec m} {b d : BitVec n} (h : a ++ b = c ++ d) : a = c ∧ b = d := by
  have key : ∀ i, (a ++ b).getLsbD i = (c ++ d).getLsbD i := fun i => by rw [h]
  simp only [BitVec.getLsbD_append] at key
  constructor
  · apply BitVec.eq_of_getLsbD_eq
    intro i _
    have := key (n + i)
    simpa using this
  · apply BitVec.eq_of_getLsbD_eq
    intro i hi
    have := key i
    simpa [hi] using this

theorem ofBool_inj {a b : Bool} (h : BitVec.ofBool a = BitVec.ofBool b) : a = b := by
  revert h; cases a <;> cases b <;> decide

/-- R123: two carriers are equal exactly when their packed values are. -/
theorem packCar_inj (a b : Carrier) : packCar a = packCar b ↔ a = b := by
  constructor
  · intro h
    obtain ⟨na, ma, ca, pa⟩ := a
    obtain ⟨nb, mb, cb, pb⟩ := b
    obtain ⟨h1, h2⟩ := append_inj h
    obtain ⟨h3, h4⟩ := append_inj h2
    obtain ⟨h5, h6⟩ := append_inj h4
    have h3 := ofBool_inj h3
    simp_all
  · rintro rfl; rfl

/-! ## Resource blocks -/

@[simp] theorem mem_prbSet (m : Vector Word 9) (n : Nat) : n ∈ prbSet m ↔ n < 288 ∧ prbBit m n = true := by
  simp [prbSet]

theorem nPrb_le (m : Vector Word 9) : nPrb m ≤ 288 := by
  simpa [nPrb, prbSet] using List.length_filter_le (prbBit m) (List.range 288)

/-- R157: the bitmap of a contiguous set is that set. -/
theorem prbBit_prbMaskOf (start len n : Nat) (h : n < 288) :
    prbBit (prbMaskOf start len) n = (decide (start ≤ n) && decide (n < start + len)) := by
  have h1 : n / 32 < 9 := by omega
  have h2 : n % 32 < 32 := Nat.mod_lt _ (by omega)
  have h3 : 32 * (n / 32) + n % 32 = n := Nat.div_add_mod n 32
  simp only [prbBit, rowAt, prbMaskOf, Vector.getElem?_ofFn, h1, dif_pos, Option.getD_some, getLsbD_bitsOf, h2, h3,
    decide_true, Bool.true_and]

/-! ## Positions -/

@[simp] theorem mem_spanOf (p : Pattern) (l : Nat) : l ∈ spanOf p ↔ p.symS ≤ l ∧ l < p.symS + p.symL := by
  simp [spanOf, List.mem_range'_1]

@[simp] theorem mem_dataScs (p : Pattern) (l sc : Nat) : sc ∈ dataScs p l ↔ sc < 12 ∧ excl p l sc = false := by
  simp [dataScs]

/-- R228: which (l, k) are data positions. -/
theorem mem_posList (p : Pattern) (l k : Nat) :
    (l, k) ∈ posList p ↔
      (p.symS ≤ l ∧ l < p.symS + p.symL) ∧ k / 12 ∈ prbSet p.prbMask ∧ excl p l (k % 12) = false := by
  simp only [posList, List.mem_flatMap, List.mem_map, mem_spanOf, mem_dataScs, Prod.mk.injEq]
  constructor
  · rintro ⟨l', hl, n, hn, sc, ⟨h12, hx⟩, rfl, rfl⟩
    have h1 : (12 * n + sc) / 12 = n := by omega
    have h2 : (12 * n + sc) % 12 = sc := by omega
    exact ⟨hl, h1.symm ▸ hn, h2.symm ▸ hx⟩
  · rintro ⟨hl, hn, hx⟩
    exact ⟨l, hl, k / 12, hn, k % 12, ⟨Nat.mod_lt _ (by omega), hx⟩, rfl, Nat.div_add_mod k 12⟩

end Sys2Proof.Machine
end

