-- ==== Sys2Proof/Laws/Memory.lean ====
section
/-! SUPPORT. Laws of the memory operations: reads after writes, and the canonical form is kept by every one of them. -/

namespace Sys2Proof.Machine

variable {α : Type}

/-! ## One space -/

@[simp] theorem memRead_nil (a : Nat) : memRead ([] : Mem α) a = none := rfl

@[simp] theorem memRead_memWrite_same (m : Mem α) (a : Nat) (v : α) : memRead (memWrite m a v) a = some v := by
  induction m with
  | nil => simp [memWrite, memRead]
  | cons e m ih =>
    obtain ⟨b, u⟩ := e
    simp only [memWrite]
    split
    · simp [memRead]
    · split
      · simp [memRead]
      · rename_i h1 h2; simp [memRead, h2, ih]

theorem memRead_memWrite_ne (m : Mem α) {a c : Nat} (v : α) (h : c ≠ a) :
    memRead (memWrite m a v) c = memRead m c := by
  induction m with
  | nil => simp [memWrite, memRead, h]
  | cons e m ih =>
    obtain ⟨b, u⟩ := e
    simp only [memWrite]
    split
    · simp [memRead, h]
    · split
      · rename_i h1 h2; subst h2; simp [memRead, h]
      · simp [memRead, ih]

/-- A read after one write. -/
theorem memRead_memWrite (m : Mem α) (a c : Nat) (v : α) :
    memRead (memWrite m a v) c = if c = a then some v else memRead m c := by
  by_cases h : c = a
  · subst h; simp
  · simp [h, memRead_memWrite_ne m v h]

/-- The value the last of a list of writes gives an address, if one names it. -/
def lastWrite (ws : List (Nat × α)) (a : Nat) : Option α := (ws.reverse.find? fun w => w.1 == a).map fun w => w.2

/-- A read after a list of writes: the last write to the address, else the old element. -/
theorem memRead_memWriteAll (ws : List (Nat × α)) (m : Mem α) (a : Nat) :
    memRead (memWriteAll m ws) a = (lastWrite ws a).or (memRead m a) := by
  induction ws using List.reverseRecOn with
  | nil => simp [memWriteAll, lastWrite]
  | append_singleton ws w ih =>
    rw [memWriteAll, List.foldl_append] at *
    simp only [List.foldl_cons, List.foldl_nil, memRead_memWrite, lastWrite, List.reverse_append, List.reverse_cons,
      List.reverse_nil, List.nil_append, List.cons_append, List.find?_cons]
    by_cases h : a = w.1
    · subst h; simp
    · have h' : (w.1 == a) = false := by simpa using fun e => h e.symm
      simp only [h, if_false, h', ih]
      rfl

/-! ## The canonical form -/

theorem memWf_tail {e : Nat × α} {m : Mem α} (h : memWf (e :: m) = true) : memWf m = true := by
  cases m with
  | nil => rfl
  | cons f m => simp only [memWf, Bool.and_eq_true] at h; exact h.2

theorem memWf_memWrite {m : Mem α} (a : Nat) (v : α) (h : memWf m = true) : memWf (memWrite m a v) = true := by
  induction m with
  | nil => rfl
  | cons e m ih =>
    obtain ⟨b, u⟩ := e
    have hm := ih (memWf_tail h)
    simp only [memWrite]
    split
    · rename_i hab; simp [memWf, hab, h]
    · rename_i hab
      split
      · rename_i heq; subst heq
        cases m with
        | nil => rfl
        | cons f m => simpa [memWf] using h
      · rename_i hne
        have hba : b < a := by omega
        cases m with
        | nil => simp [memWrite, memWf, hba]
        | cons f m =>
          obtain ⟨c, w⟩ := f
          simp only [memWf, Bool.and_eq_true, decide_eq_true_eq] at h
          simp only [memWrite] at hm ⊢
          split
          · rename_i hac; simp_all [memWf]
          · split
            · rename_i _ hac; simp_all [memWf]
            · simp_all [memWf]

theorem memWf_memWriteAll (ws : List (Nat × α)) {m : Mem α} (h : memWf m = true) :
    memWf (memWriteAll m ws) = true := by
  induction ws generalizing m with
  | nil => exact h
  | cons w ws ih => exact ih (memWf_memWrite w.1 w.2 h)

/-! ## Families of spaces -/

/-- Every space of a family is canonical. -/
def bankWf {n : Nat} (t : Vector (Mem α) n) : Prop := ∀ i (h : i < n), memWf t[i] = true

theorem bankWf_iff {n : Nat} (t : Vector (Mem α) n) : bankWf t ↔ t.toList.all memWf = true := by
  simp [bankWf]

theorem bankWf_set {n : Nat} {t : Vector (Mem α) n} {a : Nat} {m : Mem α} (h : bankWf t) (hm : memWf m = true) :
    bankWf (t.setIfInBounds a m) := by
  intro i hi
  rw [Vector.getElem_setIfInBounds]
  split
  · exact hm
  · exact h i hi

theorem memWf_bank_get {n : Nat} {t : Vector (Mem α) n} (h : bankWf t) (a : Nat) : memWf (t[a]?.getD []) = true := by
  by_cases ha : a < n
  · simpa [ha] using h a ha
  · simp [Nat.le_of_not_lt ha, memWf]

theorem bankWf_bankWrite {n : Nat} {t : Vector (Mem α) n} (h : bankWf t) (a addr : Nat) (v : α) :
    bankWf (bankWrite t a addr v) := bankWf_set h (memWf_memWrite addr v (memWf_bank_get h a))

/-- A read after one write to a family of spaces; a buffer beyond the family takes no write. -/
theorem bankRead_bankWrite {n : Nat} (t : Vector (Mem α) n) (a addr b c : Nat) (v : α) :
    bankRead (bankWrite t a addr v) b c =
      if b = a ∧ c = addr ∧ a < n then some v else bankRead t b c := by
  simp only [bankRead, bankWrite, Vector.getElem?_setIfInBounds]
  by_cases hab : a = b
  · subst hab
    by_cases hn : a < n
    · simp [hn, memRead_memWrite]
    · simp [hn]
  · have : ¬ b = a := fun h => hab h.symm
    simp [hab, this]

theorem bankWf_replicate {n : Nat} : bankWf (Vector.replicate n ([] : Mem α)) := by
  intro i hi
  simp [memWf]

/-! ## Slot writes -/

/-- The value the last of a list of slot writes gives element c of antenna b, in a grid of n blocks. -/
def lastSlot (n : Nat) (ws : List SlotWrite) (b c : Nat) : Option Config.Sample :=
  (ws.reverse.find? fun w => w.a == b && gridAddr n w.l w.k == c).map fun w => w.v

/-- A read after a list of slot writes: the last write to the element, else the old one. -/
theorem bankRead_slotWriteAll (n : Nat) (t : Vector (Mem Config.Sample) 4) (ws : List SlotWrite) (b c : Nat) (hb : b < 4) :
    bankRead (slotWriteAll n t ws) b c = (lastSlot n ws b c).or (bankRead t b c) := by
  induction ws using List.reverseRecOn with
  | nil => simp [slotWriteAll, lastSlot]
  | append_singleton ws w ih =>
    rw [slotWriteAll, List.foldl_append] at *
    simp only [List.foldl_cons, List.foldl_nil, bankRead_bankWrite, lastSlot, List.reverse_append, List.reverse_cons,
      List.reverse_nil, List.nil_append, List.cons_append, List.find?_cons]
    by_cases h : b = w.a ∧ c = gridAddr n w.l w.k
    · obtain ⟨rfl, rfl⟩ := h; simp [hb]
    · have h' : (w.a == b && gridAddr n w.l w.k == c) = false := by
        rw [Bool.and_eq_false_iff]
        by_cases h1 : b = w.a
        · right; simpa using fun e => h ⟨h1, e.symm⟩
        · left; simpa using fun e => h1 e.symm
      have h'' : ¬ (b = w.a ∧ c = gridAddr n w.l w.k ∧ w.a < 4) := fun e => h ⟨e.1, e.2.1⟩
      simp only [h'', if_false, h', ih]
      rfl

/-- An element that no write names keeps its state. -/
theorem bankRead_slotWriteAll_other (n : Nat) (t : Vector (Mem Config.Sample) 4) (ws : List SlotWrite) (b c : Nat)
    (h : ∀ w ∈ ws, ¬ (w.a = b ∧ gridAddr n w.l w.k = c)) :
    bankRead (slotWriteAll n t ws) b c = bankRead t b c := by
  induction ws generalizing t with
  | nil => rfl
  | cons w ws ih =>
    have hw := h w (List.mem_cons_self ..)
    rw [slotWriteAll, List.foldl_cons, ← slotWriteAll, ih _ fun x hx => h x (List.mem_cons_of_mem _ hx),
      bankRead_bankWrite, if_neg]
    rintro ⟨h1, h2, _⟩
    exact hw ⟨h1.symm, h2.symm⟩

theorem bankWf_slotWriteAll (n : Nat) (ws : List SlotWrite) {t : Vector (Mem Config.Sample) 4} (h : bankWf t) :
    bankWf (slotWriteAll n t ws) := by
  induction ws generalizing t with
  | nil => exact h
  | cons w ws ih => exact ih (bankWf_bankWrite h w.a _ w.v)

/-! ## The memories of the machine: every operation keeps the canonical form -/

theorem memoriesWf_iff (m : Memories) :
    memoriesWf m = true ↔
      bankWf m.slotbuf ∧ bankWf m.payload ∧ bankWf m.rxbuf ∧ memWf m.ce = true ∧ bankWf m.rxpayload := by
  simp [memoriesWf, bankWf_iff, and_assoc]

theorem memoriesWf_reset : memoriesWf State.reset.mem = true := by decide

theorem memoriesWf_putSlot (ws : List SlotWrite) {s : State} (h : memoriesWf s.mem = true) :
    memoriesWf (putSlot ws s).mem = true := by
  rw [memoriesWf_iff] at *
  exact ⟨bankWf_slotWriteAll _ ws h.1, h.2⟩

theorem memoriesWf_slotUndefined {s : State} (h : memoriesWf s.mem = true) :
    memoriesWf (slotUndefined s).mem = true := by
  rw [memoriesWf_iff] at *
  exact ⟨bankWf_replicate, h.2⟩

theorem memWf_storeBits {m : Mem Bool} (bits : List Bool) (h : memWf m = true) : memWf (storeBits m bits) = true :=
  memWf_memWriteAll _ h

theorem bankWf_vset {n : Nat} {t : Vector (Mem α) n} {i : Nat} (hi : i < n) {m : Mem α} (h : bankWf t)
    (hm : memWf m = true) : bankWf (t.set i m hi) := by
  intro j hj
  rw [Vector.getElem_set]
  split
  · exact hm
  · exact h j hj

theorem memoriesWf_decodeCommit (bits : List Bool) (rx : RxRegs) {s : State} (h : memoriesWf s.mem = true) :
    memoriesWf (decodeCommit bits rx s).mem = true := by
  rw [memoriesWf_iff] at *
  obtain ⟨h1, h2, h3, h4, h5⟩ := h
  exact ⟨h1, h2, h3, h4, bankWf_vset (by decide) h5 (memWf_storeBits _ (h5 0 (by decide)))⟩

theorem memoriesWf_sampleWrite (sp : SampleSpace) (addr : Nat) (v : Config.Sample) {s : State}
    (h : memoriesWf s.mem = true) : memoriesWf (sampleWrite sp addr v s).mem = true := by
  rw [memoriesWf_iff] at *
  obtain ⟨h1, h2, h3, h4, h5⟩ := h
  cases sp with
  | slotbuf a => exact ⟨bankWf_bankWrite h1 _ _ _, h2, h3, h4, h5⟩
  | rxbuf a => exact ⟨h1, h2, bankWf_bankWrite h3 _ _ _, h4, h5⟩

theorem memoriesWf_wordWrite (sp : BitSpace) (addr : Nat) (v : Word) {s : State}
    (h : memoriesWf s.mem = true) : memoriesWf (wordWrite sp addr v s).mem = true := by
  rw [memoriesWf_iff] at *
  obtain ⟨h1, h2, h3, h4, h5⟩ := h
  cases sp with
  | payload c => exact ⟨h1, bankWf_vset c.isLt h2 (memWf_memWriteAll _ (h2 c c.isLt)), h3, h4, h5⟩
  | rxpayload c => exact ⟨h1, h2, h3, h4, bankWf_vset c.isLt h5 (memWf_memWriteAll _ (h5 c c.isLt))⟩

theorem memoriesWf_writeCe (addr : Nat) (v : Config.CeElem) {m : Memories} (h : memoriesWf m = true) :
    memoriesWf { m with ce := memWrite m.ce addr v } = true := by
  rw [memoriesWf_iff] at *
  exact ⟨h.1, h.2.1, h.2.2.1, memWf_memWrite _ _ h.2.2.2.1, h.2.2.2.2⟩

end Sys2Proof.Machine
end

