-- ==== Sys2Proof/Laws/State.lean ====
section
/-! SUPPORT. What each update of the state does to each of its nine fields, by rfl, for the simp set. -/

namespace Sys2Proof.Machine

/-! ### issue -/

@[simp] theorem issue_sys (w : Word) (s : State) : (issue w s).sys = issueFlags w s.sys := rfl
@[simp] theorem issue_args (w : Word) (s : State) : (issue w s).args = s.args := rfl
@[simp] theorem issue_recs (w : Word) (s : State) : (issue w s).recs = s.recs := rfl
@[simp] theorem issue_res (w : Word) (s : State) : (issue w s).res = s.res := rfl
@[simp] theorem issue_rx (w : Word) (s : State) : (issue w s).rx = s.rx := rfl
@[simp] theorem issue_pipe (w : Word) (s : State) : (issue w s).pipe = s.pipe := rfl
@[simp] theorem issue_sa (w : Word) (s : State) : (issue w s).sa = s.sa := rfl
@[simp] theorem issue_mem (w : Word) (s : State) : (issue w s).mem = s.mem := rfl
@[simp] theorem issue_env (w : Word) (s : State) : (issue w s).env = s.env := rfl

/-! ### takeError -/

@[simp] theorem takeError_sys (e : Raised) (s : State) : (takeError e s).sys = errorFlags e s.sys := rfl
@[simp] theorem takeError_args (e : Raised) (s : State) : (takeError e s).args = s.args := rfl
@[simp] theorem takeError_recs (e : Raised) (s : State) : (takeError e s).recs = s.recs := rfl
@[simp] theorem takeError_res (e : Raised) (s : State) : (takeError e s).res = s.res := rfl
@[simp] theorem takeError_rx (e : Raised) (s : State) : (takeError e s).rx = s.rx := rfl
@[simp] theorem takeError_pipe (e : Raised) (s : State) : (takeError e s).pipe = s.pipe := rfl
@[simp] theorem takeError_sa (e : Raised) (s : State) : (takeError e s).sa = s.sa := rfl
@[simp] theorem takeError_mem (e : Raised) (s : State) : (takeError e s).mem = s.mem := rfl
@[simp] theorem takeError_env (e : Raised) (s : State) : (takeError e s).env = s.env := rfl

/-! ### completeCmd -/

@[simp] theorem completeCmd_sys (s : State) : (completeCmd s).sys = doneFlags s.sys := rfl
@[simp] theorem completeCmd_args (s : State) : (completeCmd s).args = s.args := rfl
@[simp] theorem completeCmd_recs (s : State) : (completeCmd s).recs = s.recs := rfl
@[simp] theorem completeCmd_res (s : State) : (completeCmd s).res = s.res := rfl
@[simp] theorem completeCmd_rx (s : State) : (completeCmd s).rx = s.rx := rfl
@[simp] theorem completeCmd_pipe (s : State) : (completeCmd s).pipe = s.pipe := rfl
@[simp] theorem completeCmd_sa (s : State) : (completeCmd s).sa = s.sa := rfl
@[simp] theorem completeCmd_mem (s : State) : (completeCmd s).mem = s.mem := rfl
@[simp] theorem completeCmd_env (s : State) : (completeCmd s).env = s.env := rfl

/-! ### hazard -/

@[simp] theorem hazard_sys (s : State) : (hazard s).sys = hazardFlags s.sys := rfl
@[simp] theorem hazard_args (s : State) : (hazard s).args = s.args := rfl
@[simp] theorem hazard_recs (s : State) : (hazard s).recs = s.recs := rfl
@[simp] theorem hazard_res (s : State) : (hazard s).res = s.res := rfl
@[simp] theorem hazard_rx (s : State) : (hazard s).rx = s.rx := rfl
@[simp] theorem hazard_pipe (s : State) : (hazard s).pipe = s.pipe := rfl
@[simp] theorem hazard_sa (s : State) : (hazard s).sa = s.sa := rfl
@[simp] theorem hazard_mem (s : State) : (hazard s).mem = s.mem := rfl
@[simp] theorem hazard_env (s : State) : (hazard s).env = s.env := rfl

/-! ### putSlot -/

@[simp] theorem putSlot_sys (ws : List SlotWrite) (s : State) : (putSlot ws s).sys = s.sys := rfl
@[simp] theorem putSlot_args (ws : List SlotWrite) (s : State) : (putSlot ws s).args = s.args := rfl
@[simp] theorem putSlot_recs (ws : List SlotWrite) (s : State) : (putSlot ws s).recs = s.recs := rfl
@[simp] theorem putSlot_res (ws : List SlotWrite) (s : State) : (putSlot ws s).res = s.res := rfl
@[simp] theorem putSlot_rx (ws : List SlotWrite) (s : State) : (putSlot ws s).rx = s.rx := rfl
@[simp] theorem putSlot_pipe (ws : List SlotWrite) (s : State) : (putSlot ws s).pipe = s.pipe := rfl
@[simp] theorem putSlot_sa (ws : List SlotWrite) (s : State) : (putSlot ws s).sa = s.sa := rfl
@[simp] theorem putSlot_mem (ws : List SlotWrite) (s : State) : (putSlot ws s).mem = { s.mem with slotbuf := slotWriteAll s.sa.car.nprb.toNat s.mem.slotbuf ws } := rfl
@[simp] theorem putSlot_env (ws : List SlotWrite) (s : State) : (putSlot ws s).env = s.env := rfl

/-! ### slotUndefined -/

@[simp] theorem slotUndefined_sys (s : State) : (slotUndefined s).sys = s.sys := rfl
@[simp] theorem slotUndefined_args (s : State) : (slotUndefined s).args = s.args := rfl
@[simp] theorem slotUndefined_recs (s : State) : (slotUndefined s).recs = s.recs := rfl
@[simp] theorem slotUndefined_res (s : State) : (slotUndefined s).res = s.res := rfl
@[simp] theorem slotUndefined_rx (s : State) : (slotUndefined s).rx = s.rx := rfl
@[simp] theorem slotUndefined_pipe (s : State) : (slotUndefined s).pipe = s.pipe := rfl
@[simp] theorem slotUndefined_sa (s : State) : (slotUndefined s).sa = s.sa := rfl
@[simp] theorem slotUndefined_mem (s : State) : (slotUndefined s).mem = { s.mem with slotbuf := Vector.replicate 4 [] } := rfl
@[simp] theorem slotUndefined_env (s : State) : (slotUndefined s).env = s.env := rfl

/-! ### advanceDraws -/

@[simp] theorem advanceDraws_sys (n : Nat) (s : State) : (advanceDraws n s).sys = s.sys := rfl
@[simp] theorem advanceDraws_args (n : Nat) (s : State) : (advanceDraws n s).args = s.args := rfl
@[simp] theorem advanceDraws_recs (n : Nat) (s : State) : (advanceDraws n s).recs = s.recs := rfl
@[simp] theorem advanceDraws_res (n : Nat) (s : State) : (advanceDraws n s).res = s.res := rfl
@[simp] theorem advanceDraws_rx (n : Nat) (s : State) : (advanceDraws n s).rx = s.rx := rfl
@[simp] theorem advanceDraws_pipe (n : Nat) (s : State) : (advanceDraws n s).pipe = s.pipe := rfl
@[simp] theorem advanceDraws_sa (n : Nat) (s : State) : (advanceDraws n s).sa = s.sa := rfl
@[simp] theorem advanceDraws_mem (n : Nat) (s : State) : (advanceDraws n s).mem = s.mem := rfl
@[simp] theorem advanceDraws_env (n : Nat) (s : State) : (advanceDraws n s).env = { s.env with draws := s.env.draws + n } := rfl

/-! ### allocAsked -/

@[simp] theorem allocAsked_sys (s : State) : (allocAsked s).sys = s.sys := rfl
@[simp] theorem allocAsked_args (s : State) : (allocAsked s).args = s.args := rfl
@[simp] theorem allocAsked_recs (s : State) : (allocAsked s).recs = s.recs := rfl
@[simp] theorem allocAsked_res (s : State) : (allocAsked s).res = s.res := rfl
@[simp] theorem allocAsked_rx (s : State) : (allocAsked s).rx = s.rx := rfl
@[simp] theorem allocAsked_pipe (s : State) : (allocAsked s).pipe = s.pipe := rfl
@[simp] theorem allocAsked_sa (s : State) : (allocAsked s).sa = s.sa := rfl
@[simp] theorem allocAsked_mem (s : State) : (allocAsked s).mem = s.mem := rfl
@[simp] theorem allocAsked_env (s : State) : (allocAsked s).env = { s.env with answers := { s.env.answers with alloc := s.env.answers.alloc.tail } } := rfl

/-! ### recordCall -/

@[simp] theorem recordCall_sys (q : Answers) (e : CollabEvent) (s : State) : (recordCall q e s).sys = s.sys := rfl
@[simp] theorem recordCall_args (q : Answers) (e : CollabEvent) (s : State) : (recordCall q e s).args = s.args := rfl
@[simp] theorem recordCall_recs (q : Answers) (e : CollabEvent) (s : State) : (recordCall q e s).recs = s.recs := rfl
@[simp] theorem recordCall_res (q : Answers) (e : CollabEvent) (s : State) : (recordCall q e s).res = s.res := rfl
@[simp] theorem recordCall_rx (q : Answers) (e : CollabEvent) (s : State) : (recordCall q e s).rx = s.rx := rfl
@[simp] theorem recordCall_pipe (q : Answers) (e : CollabEvent) (s : State) : (recordCall q e s).pipe = s.pipe := rfl
@[simp] theorem recordCall_sa (q : Answers) (e : CollabEvent) (s : State) : (recordCall q e s).sa = s.sa := rfl
@[simp] theorem recordCall_mem (q : Answers) (e : CollabEvent) (s : State) : (recordCall q e s).mem = s.mem := rfl
@[simp] theorem recordCall_env (q : Answers) (e : CollabEvent) (s : State) : (recordCall q e s).env = { s.env with answers := q, draws := s.env.draws + 1, history := s.env.history ++ [e] } := rfl

/-! ### deliver -/

@[simp] theorem deliver_sys (d : ReadData) (s : State) : (deliver d s).sys = s.sys := rfl
@[simp] theorem deliver_args (d : ReadData) (s : State) : (deliver d s).args = s.args := rfl
@[simp] theorem deliver_recs (d : ReadData) (s : State) : (deliver d s).recs = s.recs := rfl
@[simp] theorem deliver_res (d : ReadData) (s : State) : (deliver d s).res = s.res := rfl
@[simp] theorem deliver_rx (d : ReadData) (s : State) : (deliver d s).rx = s.rx := rfl
@[simp] theorem deliver_pipe (d : ReadData) (s : State) : (deliver d s).pipe = s.pipe := rfl
@[simp] theorem deliver_sa (d : ReadData) (s : State) : (deliver d s).sa = s.sa := rfl
@[simp] theorem deliver_mem (d : ReadData) (s : State) : (deliver d s).mem = s.mem := rfl
@[simp] theorem deliver_env (d : ReadData) (s : State) : (deliver d s).env = { s.env with readData := some d } := rfl

/-! ### portDrawn -/

@[simp] theorem portDrawn_sys (n : Nat) (s : State) : (portDrawn n s).sys = s.sys := rfl
@[simp] theorem portDrawn_args (n : Nat) (s : State) : (portDrawn n s).args = s.args := rfl
@[simp] theorem portDrawn_recs (n : Nat) (s : State) : (portDrawn n s).recs = s.recs := rfl
@[simp] theorem portDrawn_res (n : Nat) (s : State) : (portDrawn n s).res = s.res := rfl
@[simp] theorem portDrawn_rx (n : Nat) (s : State) : (portDrawn n s).rx = s.rx := rfl
@[simp] theorem portDrawn_pipe (n : Nat) (s : State) : (portDrawn n s).pipe = s.pipe := rfl
@[simp] theorem portDrawn_sa (n : Nat) (s : State) : (portDrawn n s).sa = s.sa := rfl
@[simp] theorem portDrawn_mem (n : Nat) (s : State) : (portDrawn n s).mem = s.mem := rfl
@[simp] theorem portDrawn_env (n : Nat) (s : State) : (portDrawn n s).env = { s.env with portDraws := s.env.portDraws + n } := rfl

/-! ### turnTaken -/

@[simp] theorem turnTaken_sys (r : List Turn) (s : State) : (turnTaken r s).sys = s.sys := rfl
@[simp] theorem turnTaken_args (r : List Turn) (s : State) : (turnTaken r s).args = s.args := rfl
@[simp] theorem turnTaken_recs (r : List Turn) (s : State) : (turnTaken r s).recs = s.recs := rfl
@[simp] theorem turnTaken_res (r : List Turn) (s : State) : (turnTaken r s).res = s.res := rfl
@[simp] theorem turnTaken_rx (r : List Turn) (s : State) : (turnTaken r s).rx = s.rx := rfl
@[simp] theorem turnTaken_pipe (r : List Turn) (s : State) : (turnTaken r s).pipe = s.pipe := rfl
@[simp] theorem turnTaken_sa (r : List Turn) (s : State) : (turnTaken r s).sa = s.sa := rfl
@[simp] theorem turnTaken_mem (r : List Turn) (s : State) : (turnTaken r s).mem = s.mem := rfl
@[simp] theorem turnTaken_env (r : List Turn) (s : State) : (turnTaken r s).env = { s.env with schedule := r } := rfl

/-! ### hardReset -/

@[simp] theorem hardReset_sys (s : State) : (hardReset s).sys = State.reset.sys := rfl
@[simp] theorem hardReset_args (s : State) : (hardReset s).args = State.reset.args := rfl
@[simp] theorem hardReset_recs (s : State) : (hardReset s).recs = State.reset.recs := rfl
@[simp] theorem hardReset_res (s : State) : (hardReset s).res = State.reset.res := rfl
@[simp] theorem hardReset_rx (s : State) : (hardReset s).rx = State.reset.rx := rfl
@[simp] theorem hardReset_pipe (s : State) : (hardReset s).pipe = State.reset.pipe := rfl
@[simp] theorem hardReset_sa (s : State) : (hardReset s).sa = State.reset.sa := rfl
@[simp] theorem hardReset_mem (s : State) : (hardReset s).mem = State.reset.mem := rfl
@[simp] theorem hardReset_env (s : State) : (hardReset s).env = s.env := rfl

/-! ### The collaborator calls are `recordCall` -/

@[simp] theorem fecEncodeCalled_eq (a : List Bool) (g qm nu : Nat) (tb : TbRegs) (s : State) :
    fecEncodeCalled a g qm nu tb s = recordCall { s.env.answers with fecEncode := s.env.answers.fecEncode.tail }
      (.fecEncode a tb.tbs.toNat g qm nu tb.rv tb.r tb.mcs (fecEncodeAnswer s)) s := rfl
@[simp] theorem fecDecodeCalled_eq (l : List Config.Llr) (g qm nu : Nat) (tb : TbRegs) (s : State) :
    fecDecodeCalled l g qm nu tb s = recordCall { s.env.answers with fecDecode := s.env.answers.fecDecode.tail }
      (.fecDecode l g tb.tbs.toNat qm nu tb.rv tb.r tb.mcs (fecDecodeAnswer s)) s := rfl
@[simp] theorem seqGenCalled_eq (cw n : Nat) (s : State) :
    seqGenCalled cw n s = recordCall { s.env.answers with seqGen := s.env.answers.seqGen.tail }
      (.seqGen s.args.en.cellId s.args.en.rnti s.args.en.slot cw n (seqGenAnswer cw n s)) s := rfl
@[simp] theorem equalizeCalled_eq (r : List (List Config.Sample)) (np nu : Nat) (p : List (Nat × Nat)) (s : State) :
    equalizeCalled r np nu p s = recordCall { s.env.answers with equalize := s.env.answers.equalize.tail }
      (.equalize s.mem.ce r np nu p s.recs.cfg.dmrsType s.recs.cfg.dmrsSym s.recs.gr.ports s.recs.gr.mapType
        (equalizeAnswer s)) s := rfl
@[simp] theorem dmrsValsCalled_eq (q : List (Nat × Nat × Nat)) (s : State) :
    dmrsValsCalled q s = recordCall { s.env.answers with dmrsVals := s.env.answers.dmrsVals.tail }
      (.dmrsVals s.args.en.cellId s.args.en.slot s.recs.gr.dir s.recs.cfg.dmrsType s.recs.gr.dmrsPtr s.recs.gr.ncg q
        s.recs.gr.mapType (dmrsValsAnswer s)) s := rfl
@[simp] theorem pdcchDmrsCalled_eq (s : State) :
    pdcchDmrsCalled s = recordCall { s.env.answers with pdcchDmrs := s.env.answers.pdcchDmrs.tail }
      (.pdcchDmrs s.sa.coreset s.sa.car s.args.en.cellId s.args.en.slot s.args.pd.aggr s.args.pd.ncce (pdcchDmrsAnswer s)) s := rfl
@[simp] theorem pdcchEncodeCalled_eq (s : State) :
    pdcchEncodeCalled s = recordCall { s.env.answers with pdcchEncode := s.env.answers.pdcchEncode.tail }
      (.pdcchEncode s.sa.coreset s.sa.car (pdcchMessage s.args.pd) s.args.pd.msgLen.toNat s.args.en.rnti s.args.en.cellId
        s.args.en.slot s.args.pd.aggr s.args.pd.ncce (pdcchEncodeAnswer s)) s := rfl
@[simp] theorem transformCalled_eq (a : Nat) (g : List (List Config.Sample)) (s : State) :
    transformCalled a g s = recordCall { s.env.answers with transform := s.env.answers.transform.tail }
      (.transform a s.sa.car g (transformAnswer s)) s := rfl

end Sys2Proof.Machine
end

