-- ==== Sys2Proof/Laws/Ops.lean ====
section
/-! SUPPORT. One lemma per shared operation that says what it can do: checks, ends of commands, completion, collaborator
calls, and the bodies that two commands share. -/

namespace Sys2Proof.Machine

open Sys2Proof.Config

/-! ## Checks (R316) -/

@[simp] theorem firstFailing_nil : firstFailing [] = none := rfl

@[simp] theorem firstFailing_cons (f : Bool) (c : ErrCode) (rest : List (Bool × ErrCode)) :
    firstFailing ((f, c) :: rest) = if f then some c else firstFailing rest := rfl

theorem firstFailing_none_iff (lines : List (Bool × ErrCode)) :
    firstFailing lines = none ↔ ∀ x ∈ lines, x.1 = false := by
  induction lines with
  | nil => simp
  | cons x rest ih => obtain ⟨f, c⟩ := x; cases f <;> simp [ih]

/-- The checks pass exactly when no line fails. -/
theorem guardLines_ok_iff (step : BitVec 4) (lines : List (Bool × ErrCode)) :
    guardLines step lines = .ok () ↔ firstFailing lines = none := by
  simp only [guardLines]; split <;> simp_all

/-- The checks raise exactly the first failing code, with the given step. -/
theorem guardLines_error_iff (step : BitVec 4) (lines : List (Bool × ErrCode)) (e : Raised) :
    guardLines step lines = .error e ↔ firstFailing lines = some e.code ∧ e.step = step := by
  obtain ⟨code, st⟩ := e
  simp only [guardLines]
  split <;> rename_i h
  · simp only [Except.error.injEq, Raised.mk.injEq, h, Option.some.injEq]
    exact ⟨fun ⟨a, b⟩ => ⟨a, b.symm⟩, fun ⟨a, b⟩ => ⟨a, b.symm⟩⟩
  · simp [h]

theorem guardLines_cases (step : BitVec 4) (lines : List (Bool × ErrCode)) :
    (guardLines step lines = .ok () ∧ firstFailing lines = none) ∨
      ∃ c, guardLines step lines = .error { code := c, step := step } ∧ firstFailing lines = some c := by
  simp only [guardLines]
  split <;> simp_all

@[simp] theorem orRaise_ok {α : Type} (x : α) (s : State) (k : α → CmdEnd) : orRaise (.ok x) s k = k x := rfl

@[simp] theorem orRaise_error {α : Type} (e : Raised) (s : State) (k : α → CmdEnd) :
    orRaise (.error e) s k = .raised e s := rfl

/-! ## Ends of commands (R318) -/

/-- The state a rule ended in, before completion. -/
def endState : CmdEnd → State
  | .done s => s
  | .raised _ s => s

@[simp] theorem endState_done (s : State) : endState (.done s) = s := rfl
@[simp] theorem endState_raised (e : Raised) (s : State) : endState (.raised e s) = s := rfl

@[simp] theorem finish_next_iff (r : CmdEnd) (t : State) : finish r = .next t ↔ t = finishState r := by
  simp only [finish, Host.Outcome.next.injEq]; exact eq_comm

@[simp] theorem finishState_done (s : State) : finishState (.done s) = completeCmd s := rfl
@[simp] theorem finishState_raised (e : Raised) (s : State) : finishState (.raised e s) = completeCmd (takeError e s) := rfl

/-- R318: completion writes the system registers only. -/
theorem finishState_fields (r : CmdEnd) :
    (finishState r).args = (endState r).args ∧ (finishState r).recs = (endState r).recs ∧
      (finishState r).res = (endState r).res ∧ (finishState r).rx = (endState r).rx ∧
      (finishState r).pipe = (endState r).pipe ∧ (finishState r).sa = (endState r).sa ∧
      (finishState r).mem = (endState r).mem ∧ (finishState r).env = (endState r).env := by
  cases r <;> simp

@[simp] theorem andThen_done (s : State) (k : State → CmdEnd) : andThen (.done s) k = k s := rfl
@[simp] theorem andThen_raised (e : Raised) (s : State) (k : State → CmdEnd) : andThen (.raised e s) k = .raised e s := rfl

/-- Two states with the same registers. -/
def SameRegs (s t : State) : Prop :=
  t.sys = s.sys ∧ t.args = s.args ∧ t.recs = s.recs ∧ t.res = s.res ∧ t.pipe = s.pipe ∧ t.sa = s.sa

theorem SameRegs.refl (s : State) : SameRegs s s := ⟨rfl, rfl, rfl, rfl, rfl, rfl⟩

theorem SameRegs.trans {s t u : State} (h : SameRegs s t) (k : SameRegs t u) : SameRegs s u := by
  obtain ⟨a, b, c, d, e, f⟩ := h
  obtain ⟨a', b', c', d', e', f'⟩ := k
  exact ⟨a'.trans a, b'.trans b, c'.trans c, d'.trans d, e'.trans e, f'.trans f⟩

/-- Calls, draws and slot writes keep every register. -/
theorem recordCall_sameRegs (q : Answers) (e : CollabEvent) (s : State) : SameRegs s (recordCall q e s) := SameRegs.refl s
theorem putSlot_sameRegs (ws : List SlotWrite) (s : State) : SameRegs s (putSlot ws s) := SameRegs.refl s

/-! ## The checks of R225 and R229, as facts -/

/-- R225: what `CheckGrant` establishes. -/
theorem checkGrant_ok {step : BitVec 4} {role : Role} {s : State} (h : checkGrant step role s = .ok ()) :
    s.pipe.state = .carrierSet ∧ s.pipe.role = role ∧ s.recs.gr.valid = true ∧ s.recs.cfg.valid = true ∧
      (role = .transmitter → s.sa.state = .carrierSet ∧ s.sa.car = s.pipe.car) ∧
      (∀ n ∈ prbSet s.recs.gr.prbMask, n < s.pipe.capPrb.toNat ∧ n < s.pipe.car.nprb.toNat) ∧
      s.recs.gr.nlayers.toNat ≤ s.pipe.capLayers.toNat ∧ nPrb s.recs.gr.prbMask ≠ 0 ∧
      1 ≤ s.recs.gr.symL.toNat ∧ s.recs.gr.symS.toNat + s.recs.gr.symL.toNat ≤ nsymb s.pipe.car.cp ∧
      1 ≤ s.recs.gr.nlayers.toNat ∧ popcount s.recs.gr.ports = s.recs.gr.nlayers.toNat ∧
      ncgIllegal s.recs.cfg.dmrsType s.recs.gr.ncg.toNat = false ∧
      (∀ p ∈ setBits s.recs.gr.ports, portIllegal s.recs.cfg.dmrsType s.recs.gr.ncg.toNat p = false) ∧
      s.recs.gr.nlayers.toNat ≤ s.pipe.car.nports.toNat ∧ s.recs.tb1.en = false ∧ s.args.en.precode = false := by
  rw [checkGrant, guardLines_ok_iff, firstFailing_none_iff] at h
  simp only [checkGrantLines, List.mem_cons, List.not_mem_nil, or_false, forall_eq_or_imp, forall_eq] at h
  obtain ⟨h1, h2, h3, h4, h5, h6, _, h8, h9, h10, h11, h12, h13, h14, h15, h16⟩ := h
  simp only [bne_eq_false_iff_eq, Bool.or_eq_false_iff, Bool.not_eq_false', List.any_eq_false, decide_eq_false_iff_not,
    decide_eq_true_eq, Nat.not_lt, Nat.not_le] at h1 h2 h3 h5 h6 h8 h9 h10 h11 h13 h14
  refine ⟨h1, h2, h3.1, h3.2, ?_, fun n hn => ⟨h5 n hn, h9 n hn⟩, h6, h8, by omega, h10.2, by omega, h11.2, h12, ?_, h14,
    h15, h16⟩
  · rintro rfl
    simp only [beq_self_eq_true, Bool.true_and, Bool.or_eq_false_iff, beq_eq_false_iff_ne, ne_eq,
      bne_eq_false_iff_eq, packCar_inj] at h4
    refine ⟨?_, h4.2⟩
    cases hs : s.sa.state
    · exact absurd hs h4.1
    · rfl
  · intro p hp
    simpa using h13 p hp

/-- R229: what `CheckCodeword` establishes: in particular the coded length is exactly TB_NBITS. -/
theorem checkCodeword_ok {step : BitVec 4} {role : Role} {s : State} (h : checkCodeword step role s = .ok ()) :
    qmLegal s.recs.tb0.qm.toNat = true ∧ 1 ≤ s.recs.tb0.tbs.toNat ∧ s.recs.tb0.tbs.toNat ≤ maxTbsBits ∧
      (role = .transmitter → s.args.en.payLen0 = s.recs.tb0.tbs) ∧ s.recs.tb0.nbits.toNat = codedBits s.recs ∧
      codedBits s.recs ≠ 0 := by
  rw [checkCodeword, guardLines_ok_iff, firstFailing_none_iff] at h
  simp only [checkCodewordLines, List.mem_cons, List.not_mem_nil, or_false, forall_eq_or_imp, forall_eq,
    Bool.or_eq_false_iff, Bool.not_eq_false', decide_eq_false_iff_not, Nat.not_lt] at h
  obtain ⟨h1, h2, h3, h4, h5⟩ := h
  refine ⟨h1, by omega, h2.2, ?_, by omega, h5.2⟩
  rintro rfl
  simpa using h3

/-- R149: what `SlotNre()` establishes and answers. -/
theorem slotNre_ok {step : BitVec 4} {p : Pattern} {r : Nat × Nat} (h : slotNre step p = .ok r) :
    nPrb p.prbMask ≠ 0 ∧ p.symL ≠ 0 ∧ p.symS + p.symL ≤ 14 ∧ ncgIllegal p.dmrsType p.ncg = false ∧
      r = (nreEff p, nreAvail p) := by
  simp only [slotNre] at h
  rcases guardLines_cases step (slotNreLines p) with ⟨hg, hf⟩ | ⟨c, hg, _⟩
  · rw [hg] at h
    rw [firstFailing_none_iff] at hf
    simp only [slotNreLines, List.mem_cons, List.not_mem_nil, or_false, forall_eq_or_imp, forall_eq,
      Bool.or_eq_false_iff, decide_eq_false_iff_not, Nat.not_lt] at hf
    simp only [Except.ok.injEq] at h
    exact ⟨hf.1, hf.2.1.1, hf.2.1.2, hf.2.2, h.symm⟩
  · rw [hg] at h; exact absurd h (by simp)

/-! ## Shared bodies -/

/-- R230: ENCODE's rule writes no register; it touches only SLOTBUF and the environment. -/
theorem encodeRule_frame (step : BitVec 4) (s : State) :
    SameRegs s (endState (encodeRule step s)) ∧ (endState (encodeRule step s)).rx = s.rx ∧
      (endState (encodeRule step s)).mem.payload = s.mem.payload ∧ (endState (encodeRule step s)).mem.rxbuf = s.mem.rxbuf ∧
      (endState (encodeRule step s)).mem.ce = s.mem.ce ∧ (endState (encodeRule step s)).mem.rxpayload = s.mem.rxpayload := by
  have base : ∀ t, t = s → SameRegs s t ∧ t.rx = s.rx ∧ t.mem.payload = s.mem.payload ∧ t.mem.rxbuf = s.mem.rxbuf ∧
      t.mem.ce = s.mem.ce ∧ t.mem.rxpayload = s.mem.rxpayload := by
    rintro t rfl; exact ⟨SameRegs.refl _, rfl, rfl, rfl, rfl, rfl⟩
  unfold encodeRule
  cases checkGrant step .transmitter s with
  | error e => exact base _ rfl
  | ok u =>
    simp only [orRaise_ok]
    split
    · cases checkCodeword step .transmitter s with
      | error e => exact base _ rfl
      | ok u =>
        simp only [orRaise_ok, encodeBody]
        split
        · exact base s rfl
        · split <;> exact base s rfl
    · exact base _ rfl

/-- R274: one placement of PDCCH_PUT: the failure, the refused list, or the writes. -/
theorem pdcchPlace_cases (step : BitVec 4) (ans : Option (List (Nat × Nat × Sample))) (s : State) :
    (ans = none ∧ pdcchPlace step ans s = .raised { code := .ciCollab, step := step } s) ∨
      ∃ w, ans = some w ∧
        ((allInCoreset s w = true ∧ pdcchPlace step ans s = .done (putSlot (pdcchWrites w) s)) ∨
          (allInCoreset s w = false ∧ pdcchPlace step ans s = .raised { code := .iiPdcchLoc, step := step } s)) := by
  cases ans with
  | none => exact .inl ⟨rfl, rfl⟩
  | some w =>
    refine .inr ⟨w, rfl, ?_⟩
    cases h : allInCoreset s w <;> simp [pdcchPlace, h]

/-- R279: the antennas write no register, and afterwards every slot-buffer element is undefined. -/
theorem genAntennas_frame (as : List Nat) (s : State) :
    SameRegs s (endState (genAntennas as s)) ∧ (endState (genAntennas as s)).rx = s.rx ∧
      (endState (genAntennas as s)).mem = { s.mem with slotbuf := Vector.replicate 4 [] } := by
  induction as generalizing s with
  | nil => exact ⟨SameRegs.refl s, rfl, rfl⟩
  | cons a rest ih =>
    simp only [genAntennas]
    split
    · exact ih (transformed a s)
    · exact ⟨SameRegs.refl s, rfl, rfl⟩

/-- R17: an allocation within the maxima fails only by a scripted refusal. -/
theorem allocOk_of_maxima {u : AllocUnit} {nprb nx : Nat} {s : State} (h : allocWithinMaxima u nprb nx = true)
    (ha : s.env.answers.alloc.head? ≠ some false) : allocOk u nprb nx s = true := by
  simp only [allocOk, h, Bool.true_and]
  cases hh : s.env.answers.alloc.head? with
  | none => rfl
  | some b => cases b <;> simp_all

@[simp] theorem samplesAt_length {n : Nat} (t : Vector (Mem Sample) n) (d : Nat) (places : List (Nat × Nat)) :
    (samplesAt t d places).length = places.length := by simp [samplesAt]

@[simp] theorem bitsFrom_length (m : Mem Bool) (d len : Nat) : (bitsFrom m d len).length = len := by simp [bitsFrom]

@[simp] theorem modulate_length (nm : Numerics) (qm : Nat) (bs : List Bool) :
    (modulate nm qm bs).length = bs.length / qm := by simp [modulate]

@[simp] theorem layerOf_length (nm : Numerics) (d : List Sample) (nu lam m : Nat) :
    (layerOf nm d nu lam m).length = m := by simp [layerOf]

theorem shapedBits_some {n : Nat} {ans : Option (List Bool)} {b : List Bool} (h : shapedBits n ans = some b) :
    ans = some b ∧ b.length = n := by
  cases ans with
  | none => simp [shapedBits] at h
  | some c =>
    simp only [shapedBits, Option.bind_some] at h
    split at h
    · rename_i hl
      simp only [Option.some.injEq] at h
      exact h ▸ ⟨rfl, hl⟩
    · simp at h

/-! ## The host's access -/

@[simp] theorem inSpace_of_lt {α : Type} {addr n : Nat} (h : addr < n) (x : Option α) : inSpace addr n x = x := by
  simp [inSpace, h]

@[simp] theorem inSpace_of_le {α : Type} {addr n : Nat} (h : n ≤ addr) (x : Option α) : inSpace addr n x = none := by
  simp [inSpace, Nat.not_lt.mpr h]

/-- R75, U15: a write either is made or, refused, changes nothing. -/
theorem ifInSpace_cases (addr n : Nat) (t s : State) :
    (addr < n ∧ ifInSpace addr n t s = t) ∨ (n ≤ addr ∧ ifInSpace addr n t s = s) := by
  unfold ifInSpace; split <;> simp_all

/-- Every access of the host goes on. -/
theorem hostAccess_next (x : HostAccess) (s : State) :
    hostAccess x s = .next (if s.sys.busy then busyAccess x s else idleAccess x s) := rfl

/-- R366: an access while BUSY = 1 changes no register but HAZ, and no memory. -/
theorem busyAccess_frame (x : HostAccess) (s : State) :
    (busyAccess x s).args = s.args ∧ (busyAccess x s).recs = s.recs ∧ (busyAccess x s).res = s.res ∧
      (busyAccess x s).rx = s.rx ∧ (busyAccess x s).pipe = s.pipe ∧ (busyAccess x s).sa = s.sa ∧
      (busyAccess x s).mem = s.mem ∧ ((busyAccess x s).sys = s.sys ∨ (busyAccess x s).sys = hazardFlags s.sys) := by
  cases x <;> simp only [busyAccess]
  case regRead a => split <;> simp
  all_goals simp

/-- The step of a scheduled turn. -/
theorem step_cons (s : State) (t : Turn) (rest : List Turn) (h : s.env.schedule = t :: rest) :
    step s = runTurn t (turnTaken rest s) := by simp [step, h]

/-- With nothing scheduled a step is the executor's turn. -/
theorem step_nil (s : State) (h : s.env.schedule = []) : step s = executorTurn s := by simp [step, h]

/-- With nothing scheduled and nothing in flight a step changes nothing. -/
theorem step_idle (s : State) (h : s.env.schedule = []) (hb : s.sys.busy = false) : step s = .next s := by
  simp [step, executorTurn, h, hb]

end Sys2Proof.Machine
end

