-- ==== Sys2Proof/Laws/PerInstr.lean ====
section
/-! SUPPORT. The statement made for every command, by one lemma per constructor: its word's fields are well formed, and they
survive being packed and unpacked. -/

namespace Sys2Proof.Laws

/-- R102, R104: the fields of a command's word pass the three checks of R102, and packing them keeps them. -/
def WordWellFormed.Statement (i : Instr) : Prop :=
  (encodeFields i).wellFormed = true ∧ fieldsOf (wordOf (encodeFields i)) = encodeFields i

theorem WordWellFormed.rateFromMcs : WordWellFormed.Statement .rateFromMcs := by unfold WordWellFormed.Statement; decide
theorem WordWellFormed.modFromMcs : WordWellFormed.Statement .modFromMcs := by unfold WordWellFormed.Statement; decide
theorem WordWellFormed.slotNre : WordWellFormed.Statement .slotNre := by unfold WordWellFormed.Statement; decide
theorem WordWellFormed.tbs : WordWellFormed.Statement .tbs := by unfold WordWellFormed.Statement; decide
theorem WordWellFormed.fillTb0 : WordWellFormed.Statement .fillTb0 := by unfold WordWellFormed.Statement; decide
theorem WordWellFormed.fillTb1 : WordWellFormed.Statement .fillTb1 := by unfold WordWellFormed.Statement; decide
theorem WordWellFormed.dci2GrantDl : WordWellFormed.Statement .dci2GrantDl := by unfold WordWellFormed.Statement; decide
theorem WordWellFormed.dci2GrantUl : WordWellFormed.Statement .dci2GrantUl := by unfold WordWellFormed.Statement; decide
theorem WordWellFormed.pipeInitTx : WordWellFormed.Statement .pipeInitTx := by unfold WordWellFormed.Statement; decide
theorem WordWellFormed.pipeInitRx : WordWellFormed.Statement .pipeInitRx := by unfold WordWellFormed.Statement; decide
theorem WordWellFormed.pipeSetCarrier : WordWellFormed.Statement .pipeSetCarrier := by
  unfold WordWellFormed.Statement; decide
theorem WordWellFormed.pipeFree : WordWellFormed.Statement .pipeFree := by unfold WordWellFormed.Statement; decide
theorem WordWellFormed.encode : WordWellFormed.Statement .encode := by unfold WordWellFormed.Statement; decide
theorem WordWellFormed.decode : WordWellFormed.Statement .decode := by unfold WordWellFormed.Statement; decide
theorem WordWellFormed.saSetCarrier : WordWellFormed.Statement .saSetCarrier := by unfold WordWellFormed.Statement; decide
theorem WordWellFormed.saSetCoreset : WordWellFormed.Statement .saSetCoreset := by unfold WordWellFormed.Statement; decide
theorem WordWellFormed.baseZero : WordWellFormed.Statement .baseZero := by unfold WordWellFormed.Statement; decide
theorem WordWellFormed.pdcchPut : WordWellFormed.Statement .pdcchPut := by unfold WordWellFormed.Statement; decide
theorem WordWellFormed.pdschPut : WordWellFormed.Statement .pdschPut := by unfold WordWellFormed.Statement; decide
theorem WordWellFormed.genSignal : WordWellFormed.Statement .genSignal := by unfold WordWellFormed.Statement; decide

end Sys2Proof.Laws
end

