-- ==== Sys2Proof/Laws/Units.lean ====
section
/-! SUPPORT. The legality checks and unit invariants as propositions with their numbers, so that no later proof unfolds
them. -/

namespace Sys2Proof.Machine

open Sys2Proof.Config

theorem carrierValid_iff (c : Carrier) :
    carrierValid c = true ↔ 1 ≤ c.nprb.toNat ∧ c.nprb.toNat ≤ 275 ∧ c.mu.toNat ≤ 4 ∧ 1 ≤ c.nports.toNat ∧
      c.nports.toNat ≤ 4 := by
  simp only [carrierValid, Bool.and_eq_true, decide_eq_true_eq, and_assoc]
  exact Iff.rfl

theorem capsLegal_iff (p : PipeRegs) :
    capsLegal p = true ↔ 1 ≤ p.capPrb.toNat ∧ p.capPrb.toNat ≤ 275 ∧ 1 ≤ p.capLayers.toNat ∧ p.capLayers.toNat ≤ 4 ∧
      1 ≤ p.capCw.toNat ∧ p.capCw.toNat ≤ 2 := by
  simp only [capsLegal, Bool.and_eq_true, decide_eq_true_eq, and_assoc]
  exact Iff.rfl

theorem allocWithinMaxima_pipe (n k : Nat) : allocWithinMaxima .pipe n k = true ↔ n ≤ 275 ∧ k ≤ 4 := by
  simp only [allocWithinMaxima, Bool.and_eq_true, decide_eq_true_eq]
  exact Iff.rfl

theorem allocWithinMaxima_sa (n k : Nat) : allocWithinMaxima .sa n k = true ↔ n ≤ 275 ∧ k ≤ 4 := by
  simp only [allocWithinMaxima, Bool.and_eq_true, decide_eq_true_eq]
  exact Iff.rfl

/-- R17: within the maxima, an allocation fails exactly when the environment scripts a refusal. -/
theorem allocOk_iff {u : AllocUnit} {n k : Nat} {s : State} (h : allocWithinMaxima u n k = true) :
    allocOk u n k s = true ↔ s.env.answers.alloc.head? ≠ some false := by
  simp only [allocOk, h, Bool.true_and]
  cases s.env.answers.alloc.head? with
  | none => simp
  | some b => cases b <;> simp

theorem coresetIllegal_iff (c : Coreset) :
    coresetIllegal c = true ↔ c.dur = 0 ∨ (c.freqLo = 0 ∧ c.freqHi = 0) := by
  have h0 : c.dur = 0 ↔ c.dur.toNat = 0 := by rw [BitVec.toNat_eq]; rfl
  have h4 := c.dur.isLt
  simp only [coresetIllegal, Bool.or_eq_true, decide_eq_true_eq, Bool.and_eq_true, beq_iff_eq, h0]
  constructor
  · rintro ((h | h) | h)
    · left; omega
    · omega
    · exact .inr h
  · rintro (h | h)
    · left; left; omega
    · exact .inr h

/-- What the PIPE invariant says in each state. -/
theorem pipeInv_iff (p : PipeRegs) :
    pipeInv p = true ↔
      (p.state = .uninit → p = PipeRegs.zero) ∧
      (p.state = .partialInit → p.capPrb = 0 ∧ p.capLayers = 0 ∧ p.capCw = 0 ∧ p.evmEn = false ∧ p.car = Carrier.zero) ∧
      (p.state = .ready → capsLegal p = true ∧ p.car = Carrier.zero) ∧
      (p.state = .carrierSet → capsLegal p = true ∧ carrierValid p.car = true ∧ p.car.nprb.toNat ≤ p.capPrb.toNat) := by
  cases h : p.state <;> simp [pipeInv, h, and_assoc]

/-- What the SA invariant says in each state. -/
theorem saInv_iff (a : SaRegs) :
    saInv a = true ↔
      (a.state = .noCarrier → a.capPrb = 0 ∧ a.capPorts = 0 ∧ a.car = Carrier.zero) ∧
      (a.state = .carrierSet → carrierValid a.car = true ∧ a.car.nprb.toNat ≤ a.capPrb.toNat ∧ a.capPrb.toNat ≤ 275 ∧
        a.car.nports.toNat ≤ a.capPorts.toNat ∧ a.capPorts.toNat ≤ 4) ∧
      (a.csValid = true → coresetIllegal a.coreset = false) := by
  have key : (!a.csValid || !coresetIllegal a.coreset) = true ↔ (a.csValid = true → coresetIllegal a.coreset = false) := by
    cases a.csValid <;> simp
  cases h : a.state
  · simp only [saInv, h, Bool.and_eq_true, beq_iff_eq, key]; simp [and_assoc]
  · simp only [saInv, h, Bool.and_eq_true, decide_eq_true_eq, key]
    simp only [reduceCtorEq, false_implies, true_implies, true_and, and_assoc]
    exact Iff.rfl

theorem unitsInv_iff (s : State) : unitsInv s = true ↔ pipeInv s.pipe = true ∧ saInv s.sa = true := by
  simp [unitsInv]

/-- R8: the capacities of a PIPE in order are within the maxima. -/
theorem pipe_caps_le {p : PipeRegs} (h : pipeInv p = true) :
    p.capPrb.toNat ≤ 275 ∧ p.capLayers.toNat ≤ 4 ∧ p.capCw.toNat ≤ 2 := by
  rw [pipeInv_iff] at h
  obtain ⟨h0, h1, h2, h3⟩ := h
  cases hs : p.state
  · rw [h0 hs]; decide
  · obtain ⟨a, b, c, _⟩ := h1 hs; rw [a, b, c]; decide
  · have := (capsLegal_iff p).1 (h2 hs).1; omega
  · have := (capsLegal_iff p).1 (h3 hs).1; omega

/-- R8: the capacities of an SA in order are within the maxima. -/
theorem sa_caps_le {a : SaRegs} (h : saInv a = true) : a.capPrb.toNat ≤ 275 ∧ a.capPorts.toNat ≤ 4 := by
  rw [saInv_iff] at h
  cases hs : a.state
  · obtain ⟨b, c, _⟩ := h.1 hs; rw [b, c]; decide
  · have := h.2.1 hs; omega

end Sys2Proof.Machine
end

