-- ==== Sys2Proof/Tests/Slice0.lean ====
section
/-! SUPPORT. Tests. Expected results come from the spec: words from R104, values from the vectors of 95_test_vectors.md,
named in the comments. The theorems `witness_…` show states that meet the hypotheses of the statements in
Certificates/Slice0/Obligations.lean, clause by clause. -/

namespace Sys2Proof.Tests

open Sys2Proof Sys2Proof.Machine Sys2Proof.Config Sys2Proof.Claims

/-! ## Well-formedness (R102): an ill-formed word for each check -/

theorem test_wellFormed_refuses_zero_field : (CommandWord.mk 0x01 0 1).wellFormed = false ∧
    (CommandWord.mk 0x01 0 1).opcodeOk = true ∧ (CommandWord.mk 0x01 0 1).modifierOk = true := by decide
theorem test_wellFormed_refuses_opcode : (CommandWord.mk 0x07 0 0).wellFormed = false ∧
    (CommandWord.mk 0x07 0 0).zeroOk = true ∧ (CommandWord.mk 0x07 0 0).modifierOk = true := by decide
theorem test_wellFormed_refuses_modifier : (CommandWord.mk 0x01 1 0).wellFormed = false ∧
    (CommandWord.mk 0x01 1 0).zeroOk = true ∧ (CommandWord.mk 0x01 1 0).opcodeOk = true := by decide
theorem test_wellFormed_accepts_modified : (CommandWord.mk 0x10 1 0).wellFormed = true := by decide

/-! ## Decoding: the word of every row, written out as ZERO ++ M ++ OPC (R100, R104) -/

theorem test_decode_rateFromMcs : decode (0#23 ++ 0#1 ++ 0x01#8) = .ok .rateFromMcs := by decide
theorem test_decode_modFromMcs : decode (0#23 ++ 0#1 ++ 0x02#8) = .ok .modFromMcs := by decide
theorem test_decode_slotNre : decode (0#23 ++ 0#1 ++ 0x03#8) = .ok .slotNre := by decide
theorem test_decode_tbs : decode (0#23 ++ 0#1 ++ 0x04#8) = .ok .tbs := by decide
theorem test_decode_fillTb0 : decode (0#23 ++ 0#1 ++ 0x05#8) = .ok .fillTb0 := by decide
theorem test_decode_fillTb1 : decode (0#23 ++ 1#1 ++ 0x05#8) = .ok .fillTb1 := by decide
theorem test_decode_dci2GrantDl : decode (0#23 ++ 0#1 ++ 0x06#8) = .ok .dci2GrantDl := by decide
theorem test_decode_dci2GrantUl : decode (0#23 ++ 1#1 ++ 0x06#8) = .ok .dci2GrantUl := by decide
theorem test_decode_pipeInitTx : decode (0#23 ++ 0#1 ++ 0x10#8) = .ok .pipeInitTx := by decide
theorem test_decode_pipeInitRx : decode (0#23 ++ 1#1 ++ 0x10#8) = .ok .pipeInitRx := by decide
theorem test_decode_pipeSetCarrier : decode (0#23 ++ 0#1 ++ 0x11#8) = .ok .pipeSetCarrier := by decide
theorem test_decode_pipeFree : decode (0#23 ++ 0#1 ++ 0x12#8) = .ok .pipeFree := by decide
theorem test_decode_encode : decode (0#23 ++ 0#1 ++ 0x13#8) = .ok .encode := by decide
theorem test_decode_decode : decode (0#23 ++ 0#1 ++ 0x14#8) = .ok .decode := by decide
theorem test_decode_saSetCarrier : decode (0#23 ++ 0#1 ++ 0x20#8) = .ok .saSetCarrier := by decide
theorem test_decode_saSetCoreset : decode (0#23 ++ 0#1 ++ 0x21#8) = .ok .saSetCoreset := by decide
theorem test_decode_baseZero : decode (0#23 ++ 0#1 ++ 0x22#8) = .ok .baseZero := by decide
theorem test_decode_pdcchPut : decode (0#23 ++ 0#1 ++ 0x23#8) = .ok .pdcchPut := by decide
theorem test_decode_pdschPut : decode (0#23 ++ 0#1 ++ 0x24#8) = .ok .pdschPut := by decide
theorem test_decode_genSignal : decode (0#23 ++ 0#1 ++ 0x25#8) = .ok .genSignal := by decide
/-- Vectors E5 to E10: reserved words, with the check that refuses each. -/
theorem test_decode_refuses : [0x00000000, 0x00000101, 0x00000201, 0x00000015, 0x00000125, 0x80000006].map decode =
    [.error .reservedOpcode, .error .modifierNotZero, .error .zeroField, .error .reservedOpcode, .error .modifierNotZero,
      .error .zeroField] := by decide
theorem test_decodeTableWord : decodeTableWord 32 0x00000110 = some .pipeInitRx ∧ decodeTableWord 32 0 = none := by decide

/-! ## Small states -/

/-- Host writes, as (address, value). -/
def withRegs (l : List (Nat × Nat)) (s : State) : State :=
  l.foldl (fun s w => regStore (BitVec.ofNat 9 w.1) (BitVec.ofNat 32 w.2) s) s

/-- The state a command ends in. -/
def after (i : Instr) (s : State) : State :=
  match exec i s with
  | .next t => t
  | _ => s

/-- A register, as a number. -/
def reg (s : State) (a : Nat) : Nat := (regRead (BitVec.ofNat 9 a) s).toNat

/-- ERRINFO after a command. -/
def errinfo (i : Instr) (s : State) : Nat := reg (after i s) 0x002

/-- The next answers of the collaborators. -/
def withAnswers (f : Answers → Answers) (s : State) : State := { s with env := { s.env with answers := f s.env.answers } }

/-- A command in flight, the executor next. -/
def flying (w : Word) (s : State) : State :=
  { issue w s with env := { s.env with schedule := [.executor] } }

/-- A turn of the host next. -/
def hostNext (x : HostAccess) (s : State) : State := { s with env := { s.env with schedule := [.host x] } }

/-- BUSY. -/
def busy (s : State) : State := { s with sys := { s.sys with busy := true } }

/-- The grant registers of vector NR1: 20 blocks, all 14 symbols, DMRS type 1 in symbols 2 and 11, NCG 2. -/
def nr1 : State := withRegs [(0x070, 0xFFFFF), (0x069, 14), (0x06B, 2), (0x0A3, 0x804), (0x062, 2), (0x06A, 1)] State.reset

/-- Base configuration B of the DCI2GRANT vectors. -/
def baseB : State :=
  withRegs [(0x008, 52), (0x00B, 1), (0x101, 1), (0x102, 1), (0x110, 0x381), (0x120, 0x00D), (0x140, 0x2011), (0x040, 2),
    (0x043, 988), (0x045, 10)] State.reset

/-- Base configuration B in bank 1, with an uplink format (vector G17). -/
def baseUl : State :=
  withRegs [(0x008, 52), (0x00B, 1), (0x181, 1), (0x182, 1), (0x190, 0x381), (0x1A0, 0x00D), (0x1C0, 0x2011), (0x043, 988),
    (0x045, 10)] State.reset

/-- One resource block, one port: CAR_* and PA_* of program P2. -/
def args1 : State := withRegs [(0x008, 1), (0x00B, 1), (0x010, 1), (0x011, 1), (0x012, 1)] State.reset

/-- Program P2 up to its line 5: a transmitter with the carrier set in both units. -/
def unitsTx : State := after .pipeSetCarrier (after .saSetCarrier (after .pipeInitTx args1))

/-- A receiver with the carrier set. -/
def unitsRx : State := after .pipeSetCarrier (after .pipeInitRx args1)

/-- The grant of program P2: block 0, symbols 0 and 1, DMRS in symbol 0; TB[0] as its line 12 and 13 leave it. -/
def p2Grant : List (Nat × Nat) :=
  [(0x060, 1), (0x0A0, 1), (0x070, 1), (0x069, 2), (0x06A, 1), (0x06B, 1), (0x06C, 1), (0x0A3, 1), (0x080, 1), (0x082, 2),
    (0x083, 240), (0x084, 24), (0x086, 36), (0x0C4, 24)]

/-- Coded bits and scrambling sequence of the right length, 36. -/
def bits36 : List Bool := List.replicate 36 true

/-- A transmitter ready to encode, with answering collaborators. -/
def readyTx : State :=
  withAnswers (fun a => { a with fecEncode := [some bits36], seqGen := [some bits36],
                                 dmrsVals := [some (List.replicate 6 ⟨7⟩)] }) (withRegs p2Grant unitsTx)

/-- A receiver ready to decode, with answering collaborators. -/
def readyRx : State :=
  withAnswers (fun a => { a with equalize := [some [List.replicate 18 ⟨3⟩]], seqGen := [some bits36],
                                 fecDecode := [some (List.replicate 24 true, true)] }) (withRegs p2Grant unitsRx)

/-- An SA with the carrier (52, 0, 0, 1) and the CORESET of vector A4. -/
def withCoreset : State :=
  after .saSetCoreset (withRegs [(0x028, 3), (0x02A, 2)] (after .saSetCarrier (withRegs [(0x008, 52), (0x00B, 1)] State.reset)))

/-- An SA with the carrier (1, 0, 0, 2). -/
def twoPorts : State := after .saSetCarrier (withRegs [(0x008, 1), (0x00B, 2)] State.reset)

/-! ## One or two steps of each command, against the vectors -/

/-- L1, L8. -/
theorem test_lookups_L1_L8 :
    (let s := withRegs [(0x051, 2), (0x054, 10)] State.reset
     (reg (after .rateFromMcs s) 0x05C, reg (after .modFromMcs s) 0x05D) = (680, 4)) ∧
    (let s := withRegs [(0x050, 1), (0x051, 3), (0x052, 1), (0x054, 28)] State.reset
     (reg (after .rateFromMcs s) 0x05C, reg (after .modFromMcs s) 0x05D) = (0x80000000, 0)) := by decide
/-- NR1 and NR3 (the cap). -/
theorem test_slotNre_NR1_NR3 :
    (reg (after .slotNre nr1) 0x05E, reg (after .slotNre nr1) 0x05B) = (2880, 2880) ∧
    (let s := withRegs [(0x0A2, 1), (0x06B, 1)] nr1
     (reg (after .slotNre s) 0x05E, reg (after .slotNre s) 0x05B) = (3120, 3200)) := by decide
/-- T1, T6, T14: the threshold, the threshold itself, a tie. -/
theorem test_tbs_T1_T6_T14 :
    ([[2880, 680, 4, 1], [1912, 2048, 2, 1], [5208, 1024, 2, 1]].map fun o =>
      reg (after .tbs (withRegs ([0x055, 0x057, 0x058, 0x059].zip o) State.reset)) 0x05F) = [3840, 3824, 5248] := by decide
/-- F1. -/
theorem test_fillTb0_F1 :
    (let t := after .fillTb0 (withRegs [(0x054, 10)] nr1)
     [0x081, 0x082, 0x083, 0x084, 0x086].map (reg t) = [10, 4, 680, 3840, 11520]) := by decide
/-- F4. -/
theorem test_fillTb1_F4 : errinfo .fillTb1 nr1 = 0x041 := by decide
/-- G1, program P1 line 20. -/
theorem test_dci2GrantDl_G1 :
    (let t := after .dci2GrantDl baseB
     [0x060, 0x066, 0x069, 0x06A, 0x06B, 0x06C, 0x06E, 0x06F, 0x070, 0x071, 0x0A0, 0x0A3].map (reg t) =
       [1, 20, 14, 1, 2, 1, 2880, 2880, 0xFFFFF, 0, 1, 0x804] ∧
     [0x080, 0x081, 0x082, 0x083, 0x084, 0x086, 0x088].map (reg t) = [1, 10, 4, 680, 3840, 11520, 0]) := by decide +kernel
/-- G17: the uplink variant differs in GR_DIR and GR_FORMAT. -/
theorem test_dci2GrantUl_G17 :
    (let t := after .dci2GrantUl baseUl
     [0x060, 0x061, 0x062, 0x070, 0x084].map (reg t) = [1, 1, 0, 0xFFFFF, 3840]) := by decide +kernel
/-- Q1 and its example. -/
theorem test_pipeInitTx_Q1 :
    (let t := after .pipeInitTx (withRegs [(0x010, 52), (0x011, 2), (0x012, 1)] State.reset)
     [0x018, 0x019, 0x01A, 0x01B, 0x01C, 0x01D, 0x01E].map (reg t) = [2, 0, 52, 2, 1, 0, 0]) := by decide
/-- Q4: a refused allocation leaves PARTIAL with the role. -/
theorem test_pipeInitRx_Q4 :
    (let t := after .pipeInitRx (withAnswers (fun a => { a with alloc := [false] })
        (withRegs [(0x010, 52), (0x011, 2), (0x012, 1)] State.reset))
     [0x002, 0x018, 0x019, 0x01A].map (reg t) = [0x064, 1, 1, 0]) := by decide
/-- Q9: growth to 106 blocks. -/
theorem test_pipeSetCarrier_Q9 :
    (let s := after .pipeInitTx (withRegs [(0x010, 52), (0x011, 2), (0x012, 1), (0x008, 106), (0x00B, 2)] State.reset)
     [0x018, 0x01A, 0x01E].map (reg (after .pipeSetCarrier s)) = [3, 106, 0x406A]) := by decide
/-- Q6, Q7. -/
theorem test_pipeFree_Q7 : [0x018, 0x019, 0x01A, 0x01B, 0x01C, 0x01D, 0x01E].map (reg (after .pipeFree unitsRx)) =
    [0, 0, 0, 0, 0, 0, 0] := by decide
/-- R242, vector NR10: ENCODE writes 18 elements of antenna 0, the first at (0, 1), none at (0, 0). -/
theorem test_encode_places :
    (let t := after .encode readyTx
     (t.mem.slotbuf[0].length, (memRead t.mem.slotbuf[0] 0).isSome, (memRead t.mem.slotbuf[0] 1).isSome) = (18, false, true)) := by
  decide
/-- R254: 24 payload bits, RX_LEN, RX_CRC. -/
theorem test_decode_commits :
    (let t := after .decode readyRx
     (t.mem.rxpayload[0].length, [0x0D0, 0x0D6, 0x0D1].map (reg t)) = (24, [3, 24, 0])) := by decide
/-- A1. -/
theorem test_saSetCarrier_A1 :
    [0x020, 0x021, 0x022, 0x023].map (reg (after .saSetCarrier (withRegs [(0x008, 52), (0x00B, 1)] State.reset))) =
      [1, 52, 1, 0x2034] := by decide
/-- A4, A5. -/
theorem test_saSetCoreset_A4_A5 :
    reg (after .saSetCoreset (withRegs [(0x028, 3), (0x02A, 2)] State.reset)) 0x024 = 1 ∧
      errinfo .saSetCoreset State.reset = 0x022 := by decide
/-- R273's example: carrier (1, 0, 0, 1), 168 elements, each Num.zero. -/
theorem test_baseZero_168 : (after .baseZero unitsTx).mem.slotbuf[0].length = 168 := by decide +kernel
set_option maxRecDepth 100000 in
theorem test_baseZero_last : memRead (after .baseZero unitsTx).mem.slotbuf[0] 167 = some num.zero := by rfl
/-- A11: step 1's element stays, step 2's position is outside the region. -/
theorem test_pdcchPut_A11 :
    (let s := withAnswers (fun a => { a with pdcchDmrs := [some [(0, 1, ⟨8⟩)]], pdcchEncode := [some [(0, 144, ⟨9⟩)]] }) withCoreset
     errinfo .pdcchPut s = 0x223 ∧ (after .pdcchPut s).mem.slotbuf[0] = [(1, ⟨8⟩)]) := by decide
/-- A6 (step 1), and program P2 line 17: 6 DMRS and 18 data elements. -/
theorem test_pdschPut_A6_P2 :
    errinfo .pdschPut State.reset = 0x111 ∧ (after .pdschPut readyTx).mem.slotbuf[0].length = 24 ∧
      memRead (after .pdschPut readyTx).mem.slotbuf[0] 10 = some ⟨7⟩ := by decide
/-- A13, on one block: antenna 0 is handed over, antenna 1's transform fails. -/
theorem test_genSignal_A13 :
    (let s := withAnswers (fun a => { a with transform := [true, false] }) (after .baseZero twoPorts)
     errinfo .genSignal s = 0x282 ∧ (after .genSignal s).env.history.length = 2 ∧
       (after .genSignal s).mem.slotbuf = Vector.replicate 4 []) := by decide

/-! ## The step and the host's turns -/

/-- E1 and R318, through withFetchWord: STATUS after RATE_FROM_MCS is LAST_OP 1, DONE. -/
theorem test_step_rate : (match step (State.reset.withFetchWord 32 0x00000001) with
    | .next t => (reg t 0x001, reg t 0x003, reg t 0x05C) | _ => (0, 0, 0)) = (0x0102, 1, 240) := by decide
/-- E6: STATUS 0x0116, ERRINFO 0x0010. -/
theorem test_step_reserved : (match step (State.reset.withFetchWord 32 0x00000101) with
    | .next t => (reg t 0x001, reg t 0x002, reg t 0x003) | _ => (0, 0, 0)) = (0x0116, 0x010, 1) := by decide
/-- Section 2.1: a CAR_NPRB write keeps 9 bits; a write of STATUS and of an unmapped address is ignored. -/
theorem test_port : reg (withRegs [(0x008, 0xFFFFFFFF)] State.reset) 0x008 = 0x1FF ∧
    withRegs [(0x001, 0xFFFFFFFF), (0x004, 5), (0x1FF, 5)] State.reset = State.reset := by decide
/-- U15: at the first address beyond the grid of a carrier of one block, a write changes nothing and sets no HAZ, and a read
changes no register and no memory. -/
theorem test_bulk_refused : hostAccess (.writeSample (.slotbuf 0) 168 ⟨1⟩) unitsTx = .next unitsTx ∧
    (match hostAccess (.readSample (.slotbuf 0) 168) unitsTx with
      | .next t => decide ({ t with env := unitsTx.env } = unitsTx) | _ => false) = true := by
  exact ⟨by rfl, by decide⟩
/-- R364: with nothing scheduled the command in flight completes. -/
theorem test_step_completes : (match step (issue 0x00000001 State.reset) with
    | .next t => (reg t 0x001, reg t 0x003) | _ => (0, 0)) = (0x0102, 1) := by decide
/-- Section 2.1: WR DCI_MCS during BUSY changes nothing but HAZ. -/
theorem test_hazard : hostAccess (.regWrite 0x045 3) (busy State.reset) =
    .next { busy State.reset with sys := { (busy State.reset).sys with haz := true } } := by rfl

/-! ## Witnesses for the hypotheses of the statements -/

theorem witness_ResetTurn : ∃ s : State, s.env.schedule = [.reset] ∧ s.sys.busy = true :=
  ⟨{ busy State.reset with env := { State.reset.env with schedule := [.reset] } }, by decide⟩
/-- The executor named, and nothing scheduled; with a command in flight, and without. -/
theorem witness_StepRunsTheDecodedCommand :
    (∀ s ∈ [flying (encode .encode) readyTx, issue (encode .encode) readyTx],
      s.sys.busy = true ∧ Sys2Proof.decode (fetchWord s) = .ok .encode) ∧
    ExecutorNext (flying (encode .encode) readyTx) ∧ ExecutorNext (issue (encode .encode) readyTx) ∧
    ExecutorNext State.reset ∧ State.reset.sys.busy = false :=
  ⟨by decide, .inl rfl, .inr rfl, .inr rfl, rfl⟩
theorem witness_CmdWriteIssues : (hostNext (.regWrite 0 6) baseB).env.schedule = [.host (.regWrite 0 6)] ∧
    (hostNext (.regWrite 0 6) baseB).sys.busy = false := by decide
theorem witness_ReservedWordExecutesNothing : ExecutorNext (flying 0x00000101 baseB) ∧
    (flying 0x00000101 baseB).sys.busy = true ∧ ∀ i : Instr, (flying 0x00000101 baseB).sys.cmd ≠ encode i :=
  ⟨.inl rfl, rfl, fun i => by cases i <;> decide⟩
/-- The last row of each table. -/
theorem witness_TablesAtTheirAddresses :
    reg (withRegs [(0x11F, 5), (0x1BF, 6), (0x143, 7), (0x1DD, 8), (0x078, 9), (0x0B1, 10), (0x0CF, 11)] State.reset) 0x1DD = 8 ∧
      (withRegs [(0x1DD, 8)] State.reset).args.hl1.rsv[13] = 8 := by decide
/-- The first and the last scalar register, with values that differ from their neighbours'. -/
theorem witness_ScalarRegistersAtTheirAddresses :
    (0x000, 0x13) ∈ scalarReads (issue 0x13 State.reset) ∧ (0x182, 7) ∈ scalarReads (withRegs [(0x182, 7)] State.reset) := by decide
/-- A read-write row, a read-only row and the highest row of the table; an address in a hole and the highest address. -/
theorem witness_WrittenRegisterReadsBack : State.reset.sys.busy = false ∧ (0x008 : BitVec 9) ≠ 0 ∧
    (0x008, 9, true) ∈ portTable ∧ (0x01A, 9, false) ∈ portTable ∧ (0x1DD, 12, true) ∈ portTable ∧
    (0x087 : BitVec 9).toNat ∉ portTable.map (fun r => r.1) ∧ (0x1FF : BitVec 9).toNat ∉ portTable.map (fun r => r.1) := by
  decide
theorem witness_WriteLeavesOtherRegisters : (0x010 : BitVec 9) ≠ 0x011 ∧ (0x010 : BitVec 9) ≠ 0 ∧
    State.reset.sys.busy = false := by decide
/-- Addresses 3 and 4, the last readable and the first refused. -/
theorem witness_BusyAccess_bounds : (3 : BitVec 9).toNat < 4 ∧ 4 ≤ (4 : BitVec 9).toNat := by decide
theorem witness_BusyAccess : (busy readyTx).sys.busy = true := by decide
theorem witness_HostMovesOneSample : unitsTx.sys.busy = false ∧ 167 < sampleElems (.slotbuf 0) unitsTx ∧
    167 < sampleElems (.rxbuf 0) unitsTx ∧ ¬ 168 < sampleElems (.slotbuf 0) unitsTx ∧ ¬ 0 < sampleElems (.rxbuf 1) unitsTx := by
  decide
/-- The last word address inside a bit array, and the first one outside. -/
theorem witness_BitArrayWordsPackFirstBitLow : State.reset.sys.busy = false ∧ 65535 < 65536 ∧ ¬ 65536 < 65536 := by decide
/-- Two host turns before the executor's, without and with a reset among them: the command ends within the bound. -/
theorem witness_EveryCommandEnds :
    ({ issue 1 State.reset with env := { State.reset.env with schedule := [.host (.regRead 1)] } } : State).sys.busy = true ∧
    (.reset : Turn) ∉ [Turn.host (.regRead 1)] ∧ (.reset : Turn) ∈ [Turn.host (.regRead 1), .reset] := by decide
/-- The step of a reset, a completion, a host turn, an empty schedule with a command in flight and without. -/
theorem witness_CmdcntCountsCompletions :
    (∃ s t : State, s.env.schedule.head? = some .reset ∧ step s = .next t) ∧
    (∃ s t : State, s.env.schedule.head? = some .executor ∧ s.sys.busy = true ∧ step s = .next t) ∧
    (∃ s t : State, s.env.schedule.head? = some (.host (.regWrite 0 1)) ∧ step s = .next t) ∧
    (∃ s t : State, s.env.schedule = [] ∧ s.sys.busy = true ∧ step s = .next t) ∧
    ∃ s t : State, s.env.schedule = [] ∧ s.sys.busy = false ∧ step s = .next t :=
  ⟨⟨{ State.reset with env := { State.reset.env with schedule := [.reset] } }, _, rfl, rfl⟩,
    ⟨flying (encode .pipeFree) State.reset, _, rfl, rfl, rfl⟩, ⟨hostNext (.regWrite 0 1) State.reset, _, rfl, rfl⟩,
    ⟨issue (encode .pipeFree) State.reset, _, rfl, rfl, rfl⟩, ⟨State.reset, _, rfl, rfl, rfl⟩⟩
/-- HAZ set before and kept; HAZ set by a host access during BUSY. -/
theorem witness_HazIsSticky :
    (∃ s t : State, step s = .next t ∧ s.env.schedule.head? ≠ some .reset ∧ s.sys.haz = true) ∧
    ∃ s t : State, step s = .next t ∧ s.env.schedule.head? ≠ some .reset ∧ s.sys.haz = false ∧ t.sys.haz = true :=
  ⟨⟨flying (encode .pipeFree) (hazard State.reset), _, rfl, by decide, rfl⟩,
    ⟨hostNext (.regWrite 0x045 3) (busy State.reset), _, rfl, by decide, rfl, rfl⟩⟩
/-- A completed ENCODE, a set carrier and a legal CORESET, and a state in which PIPE_FREE does not run. -/
theorem witness_UnitsGoBackOnlyByFreeOrReset : ∃ s t : State, unitsInv s = true ∧ step s = .next t ∧
    s.env.schedule.head? ≠ some .reset ∧ s.sa.state = .carrierSet ∧ s.sa.csValid = true ∧ ¬ Runs .pipeFree s :=
  ⟨flying (encode .baseZero) withCoreset, _, by decide, rfl, by decide, by decide, by decide, fun h => by
    exact absurd h.2.2 (by decide)⟩
/-- The three lifecycle states that only PIPE_FREE and reset leave backwards, each over a step that goes on. -/
theorem witness_UnitsGoBack_pipe :
    (∃ s t : State, unitsInv s = true ∧ step s = .next t ∧ s.env.schedule.head? ≠ some .reset ∧ ¬ Runs .pipeFree s ∧
      s.pipe.state = .carrierSet) ∧
    (∃ s t : State, unitsInv s = true ∧ step s = .next t ∧ s.env.schedule.head? ≠ some .reset ∧ ¬ Runs .pipeFree s ∧
      s.pipe.state = .ready) ∧
    ∃ s t : State, unitsInv s = true ∧ step s = .next t ∧ s.env.schedule.head? ≠ some .reset ∧ ¬ Runs .pipeFree s ∧
      s.pipe.state = .partialInit :=
  ⟨⟨flying (encode .baseZero) unitsTx, _, by decide, rfl, by decide, fun h => absurd h.2.2 (by decide), by decide⟩,
    ⟨flying (encode .pipeInitRx) (after .pipeInitTx args1), _, by decide, rfl, by decide, fun h => absurd h.2.2 (by decide),
      by decide⟩,
    ⟨flying (encode .pipeInitRx) (after .pipeInitTx (withAnswers (fun a => { a with alloc := [false] }) args1)), _, by decide,
      rfl, by decide, fun h => absurd h.2.2 (by decide), by decide⟩⟩
theorem witness_CommandGroups : Instr.pipeFree ∉ [Instr.rateFromMcs, .modFromMcs, .slotNre, .tbs] ∧
    isRae .tbs = true ∧ baseB.args = (busy baseB).args ∧ baseB.recs = (busy baseB).recs := by decide
/-- States that have every invariant, from which a step goes on: a command of each unit, a host write, a reset. -/
theorem witness_StepKeeps :
    (goodState (flying (encode .encode) readyTx) && goodState (flying (encode .pdcchPut) withCoreset) &&
      goodState (hostNext (.writeSample (.slotbuf 0) 167 ⟨1⟩) unitsTx)) = true ∧
    (∃ t, step (flying (encode .encode) readyTx) = .next t) ∧ (∃ t, step (flying (encode .pdcchPut) withCoreset) = .next t) ∧
    ∃ t, step (hostNext (.writeSample (.slotbuf 0) 167 ⟨1⟩) unitsTx) = .next t :=
  ⟨by decide, ⟨_, rfl⟩, ⟨_, rfl⟩, ⟨_, rfl⟩⟩

theorem witness_LookupFailsExactlyOutside : mcsLookup 1 3 1 0 27 = some (8, 1896) ∧ mcsLookup 1 3 1 0 28 = none ∧
    mcsLookup 0 2 0 0 28 = some (6, 1896) ∧ mcsLookup 0 2 0 0 29 = none := by decide
/-- NR12, NR13, NR14, NR16, NR17 and NR1, which falls under none of the errors (S + L = 14, the bound). -/
theorem witness_SlotNre :
    [[(0x070, 0)], [(0x069, 0)], [(0x068, 10), (0x069, 5)], [(0x06B, 0)], [(0x06B, 3)], [(0x068, 0)]].map
      (fun w => errinfo .slotNre (withRegs w nr1)) = [0x15, 0x16, 0x16, 0x24, 0x24, 0] := by decide
/-- T23, T24 at 0 and 5 layers, T21, T22; and 1 and 4 layers, which succeed. -/
theorem witness_TbsCommand :
    [[2880, 680, 3, 1], [2880, 680, 4, 0], [2880, 680, 4, 5], [0, 680, 4, 1], [2880, 0, 4, 1], [1, 1, 2, 1], [1, 1, 8, 4]].map
      (fun o => errinfo .tbs (withRegs ([0x055, 0x057, 0x058, 0x059].zip o) State.reset)) =
    [0x18, 0x18, 0x18, 0x81, 0x81, 0, 0] := by decide
/-- T5 and T1: element counts on both sides of the threshold. -/
theorem witness_TbsIsMonotone : tbsOf 2879 1 680 4 1 = some 3824 ∧ tbsOf 2880 1 680 4 1 = some 3840 := by decide
/-- T6: N_info = 3824 exactly, the first branch; T1: the second branch; no size at P = 0; the smallest and largest arguments
of the quantisation. -/
theorem witness_TbsIsQuantised : tbsOf 1912 1 2048 2 1 = some 3824 ∧ 1912 * 2048 * 2 * 1 ≤ 3824 * (2048 * 1) ∧
    tbsOf 2880 1 680 4 1 = some 3840 ∧ ¬ 2880 * 680 * 4 * 1 ≤ 3824 * (2048 * 1) ∧ tbsOf 0 1 680 4 1 = none ∧
    quantTable 24 = 24 ∧ quantTable 25 = 32 ∧ quantTable 3824 = 3824 := by decide
/-- F3, F5, L = 0, NCG = 0, F6 at 0 and 5 layers, F7, F1. -/
theorem witness_FillTb :
    [[(0x054, 29)], [(0x070, 0)], [(0x069, 0)], [(0x06B, 0)], [(0x06A, 0)], [(0x06A, 5)],
      (List.range 14).map fun l => (0x0A4 + l, 0xFFF), [(0x054, 10)]].map (fun w => errinfo .fillTb0 (withRegs w nr1)) =
    [0x180, 0x215, 0x216, 0x224, 0x224, 0x224, 0x381, 0] := by decide
/-- G2 to G10. -/
theorem witness_Dci2Grant_first :
    [[(0x008, 0)], [(0x040, 0)], [(0x042, 8)], [(0x042, 3)], [(0x101, 0)], [(0x043, 1378)], [(0x044, 1)], [(0x00A, 1)],
      [(0x047, 5)], [(0x120, 0x0FD)]].map (fun w => errinfo .dci2GrantDl (withRegs w baseB)) =
    [0xF12, 0xF18, 0xF18, 0xF19, 0x140, 0x11A, 0x21B, 0x216, 0x31C, 0x343] := by decide +kernel
/-- An empty port set, G11, G12, an illegal NCG, G13, G14, G15. -/
theorem witness_Dci2Grant_second :
    [[(0x120, 0x005)], [(0x120, 0x01D)], [(0x048, 1)], [(0x120, 0x009)], [(0x120, 0x023)], [(0x045, 29)],
      (List.range 14).map fun l => (0x150 + l, 0xFFF)].map (fun w => errinfo .dci2GrantDl (withRegs w baseB)) =
    [0x31C, 0x31E, 0x31D, 0x31C, 0x31C, 0x480, 0x581] := by decide +kernel
/-- G1, G17. -/
theorem witness_grants : dciError false baseB.args = none ∧ dciError true baseUl.args = none := by decide +kernel
/-- V7 and V8: the largest valid value and the first invalid one; both forms of the code. -/
theorem witness_RivIsABijection : rivDecode 52 1377 = some (25, 27) ∧ rivDecode 52 1378 = none ∧
    rivEncode 52 25 27 = 1377 ∧ rivEncode 52 10 40 = 717 ∧ rivEncode 275 0 275 = 549 := by decide
theorem witness_DataAvoidsReferenceSignals :
    (∀ q ∈ setBits (1 : BitVec 12), portIllegal (patternOf readyTx.recs).dmrsType (patternOf readyTx.recs).ncg q = false) ∧
    (dmrsPositions (patternOf readyTx.recs) 1).length = 6 ∧ (posList (patternOf readyTx.recs)).length = 18 := by decide
theorem witness_MapperIsOneToOne : OrderLegal 2 ∧ OrderLegal 8 ∧ gridPoint 8 (fun _ => true) = (-15, -15) := by decide
/-- The record of exact samples: its negation flips hard decisions. Three symbols of order 2 on each of two layers. -/
theorem witness_ReceiveInvertsTransmit : OrderLegal 2 ∧ 1 ≤ 2 ∧
    (∀ x, exactNumerics.hard (exactNumerics.neg x) = !exactNumerics.hard x) ∧
    (List.replicate 12 true).length = 3 * 2 * 2 := by
  refine ⟨by decide, by decide, fun x => ?_, by decide⟩
  rcases Nat.mod_two_eq_zero_or_one x.code with h | h <;> simp [exactNumerics, h]

/-- Q2, PA_MAX_PRB at 0 and 276, Q4, and the largest legal arguments. -/
theorem witness_PipeInit :
    errinfo .pipeInitTx unitsTx = 0x11 ∧
    [[275, 4, 2], [0, 2, 1], [276, 2, 1], [52, 5, 1], [52, 2, 3]].map (fun o =>
      errinfo .pipeInitTx (withRegs ([0x010, 0x011, 0x012].zip o) State.reset)) = [0, 0x21, 0x21, 0x21, 0x21] ∧
    errinfo .pipeInitTx (withAnswers (fun a => { a with alloc := [false] }) args1) = 0x64 := by decide
/-- Q8, Q12, Q11, Q9, Q10. -/
theorem witness_PipeSetCarrier :
    unitsInv State.reset = true ∧ errinfo .pipeSetCarrier State.reset = 0x11 ∧ unitsInv unitsTx = true ∧
    errinfo .pipeSetCarrier (withRegs [(0x009, 5)] unitsTx) = 0x12 ∧
    errinfo .pipeSetCarrier (withAnswers (fun a => { a with alloc := [false] }) (withRegs [(0x008, 2)] unitsTx)) = 0x64 ∧
    errinfo .pipeSetCarrier (withRegs [(0x008, 275)] unitsTx) = 0 ∧ errinfo .pipeSetCarrier unitsTx = 0 := by decide
/-- K1, K3, K4, K5, K7 to K14 on one block; each is the error the statement's table gives. -/
theorem witness_checkGrant :
    checkGrantError .transmitter State.reset = some (1, 0x11) ∧ checkGrantError .receiver readyTx = some (1, 0x25) ∧
    [[(0x060, 0)], [(0x0A0, 0)], [(0x070, 2)], [(0x06A, 3)], [(0x088, 1)], [(0x070, 0)], [(0x069, 15)], [(0x06C, 3)],
      [(0x06B, 3)], [(0x06C, 4)], [(0x0C3, 1)]].map (fun w => checkGrantError .transmitter (withRegs w readyTx)) =
    [some (1, 0x14), some (1, 0x14), some (3, 0x60), some (3, 0x61), some (3, 0x62), some (1, 0x15), some (1, 0x16),
      some (1, 0x24), some (1, 0x24), some (1, 0x24), some (2, 0x42)] := by decide
/-- K15 to K19, and K20 (no codeword enabled). -/
theorem witness_checkCodeword :
    [[(0x082, 3)], [(0x084, 0)], [(0x0C4, 23)], [(0x086, 37)], [(0x086, 35)]].map (fun w =>
      (checkGrantError .transmitter (withRegs w readyTx), checkCodewordError .transmitter (withRegs w readyTx))) =
    [(none, some (1, 0x24)), (none, some (1, 0x1F)), (none, some (1, 0x1F)), (none, some (3, 0x63)), (none, some (1, 0x20))] ∧
    checkGrantError .transmitter (withRegs [(0x080, 0)] readyTx) = none ∧
    checkGrantError .receiver (withRegs [(0x080, 0)] readyRx) = none ∧
    checkCodewordError .receiver (withRegs [(0x086, 37)] readyRx) = some (3, 0x63) ∧
    checkGrantError .receiver (withRegs [(0x086, 37)] readyRx) = none := by decide
theorem witness_EncodeCompletes : unitsInv readyTx = true ∧ checkGrantError .transmitter readyTx = none ∧
    readyTx.recs.tb0.en = true ∧ checkCodewordError .transmitter readyTx = none ∧
    readyTx.env.answers.fecEncode.head? = some (some bits36) ∧ readyTx.env.answers.seqGen.head? = some (some bits36) ∧
    SequenceAgrees readyTx bits36 ∧ bits36.length = codedLength readyTx.recs :=
  ⟨by decide, by decide, by decide, by decide, by decide, by decide, .inl (by decide), by decide⟩
theorem witness_PdschPutCompletes : readyTx.env.answers.dmrsVals.head? = some (some (List.replicate 6 ⟨7⟩)) ∧
    (List.replicate 6 (⟨7⟩ : Sample)).length = (dmrsPositions (patternOf readyTx.recs) readyTx.recs.gr.ports).length := by
  decide
/-- ENCODE with each collaborator failing: Fec.encode reports failure, answers 35 bits; Seq.gen reports failure, answers 35
bits. Every one of the four is CI_COLLAB. -/
theorem witness_FailedTransfer_encode :
    [[none], [some (bits36.drop 1)]].map (fun x =>
      errinfo .encode (withAnswers (fun a => { a with fecEncode := x }) readyTx)) = [0x082, 0x082] ∧
    [[none], [some (bits36.drop 1)]].map (fun x =>
      errinfo .encode (withAnswers (fun a => { a with seqGen := x }) readyTx)) = [0x082, 0x082] ∧
    EncodeCollabFails (withAnswers (fun a => { a with fecEncode := [some (bits36.drop 1)] }) readyTx) ∧
    EncodeCollabFails (withAnswers (fun a => { a with seqGen := [none] }) readyTx) :=
  ⟨by decide, by decide, .inl ⟨_, rfl, fun b h => by cases h; decide⟩,
    .inr ⟨⟨bits36, rfl, by decide⟩, _, rfl, fun c h => by cases h⟩⟩
/-- DECODE: Chest.equalize reports failure, answers two layers, answers a layer one Sample short; Seq.gen fails; Fec.decode
reports failure, answers 23 bits. -/
theorem witness_FailedTransfer_decode :
    [[none], [some [List.replicate 18 ⟨3⟩, List.replicate 18 ⟨3⟩]], [some [List.replicate 17 ⟨3⟩]]].map (fun x =>
      errinfo .decode (withAnswers (fun a => { a with equalize := x }) readyRx)) = [0x082, 0x082, 0x082] ∧
    errinfo .decode (withAnswers (fun a => { a with seqGen := [none] }) readyRx) = 0x082 ∧
    [[none], [some (List.replicate 23 true, true)]].map (fun x =>
      errinfo .decode (withAnswers (fun a => { a with fecDecode := x }) readyRx)) = [0x082, 0x082] ∧
    DecodeCollabFails (withAnswers (fun a => { a with equalize := [some [List.replicate 17 ⟨3⟩]] }) readyRx) ∧
    DecodeCollabFails (withAnswers (fun a => { a with seqGen := [none] }) readyRx) ∧
    DecodeCollabFails (withAnswers (fun a => { a with fecDecode := [some (List.replicate 23 true, true)] }) readyRx) :=
  ⟨by decide, by decide, by decide,
    .inl ⟨_, rfl, fun xh h => by cases h; exact fun k => absurd k.2 (by decide)⟩,
    .inr ⟨⟨_, rfl, by decide, by decide⟩, .inl ⟨_, rfl, fun c h => by cases h⟩⟩,
    .inr ⟨⟨_, rfl, by decide, by decide⟩, .inr ⟨⟨bits36, rfl, .inl (by decide), by decide⟩, _, rfl,
      fun b ok h => by cases h; decide⟩⟩⟩
/-- R40: the mapping type of the grant, type B here, reaches Dmrs.vals and Chest.equalize. -/
theorem test_mapType_passed :
    ((after .pdschPut (withRegs [(0x067, 1)] readyTx)).env.history.any fun e =>
      match e with | .dmrsVals _ _ _ _ _ _ _ m _ => m | _ => false) = true ∧
    ((after .decode (withRegs [(0x067, 1)] readyRx)).env.history.any fun e =>
      match e with | .equalize _ _ _ _ _ _ _ _ m _ => m | _ => false) = true := by decide
/-- R225 line 4: PDSCH_PUT with a ready transmitter PIPE and no carrier in the SA (log 18). -/
theorem test_pdschPut_noCarrier :
    errinfo .pdschPut (withRegs p2Grant (after .pipeSetCarrier (after .pipeInitTx args1))) = 0x113 := by decide
theorem witness_DecodeCompletes : checkGrantError .receiver readyRx = none ∧ readyRx.recs.tb0.en = true ∧
    checkCodewordError .receiver readyRx = none ∧ readyRx.env.answers.equalize.head? = some (some [List.replicate 18 ⟨3⟩]) ∧
    [List.replicate 18 (⟨3⟩ : Sample)].length = readyRx.recs.gr.nlayers.toNat ∧
    (∀ x ∈ [List.replicate 18 (⟨3⟩ : Sample)], x.length = (posList (patternOf readyRx.recs)).length) ∧
    readyRx.env.answers.seqGen.head? = some (some bits36) ∧ SequenceAgrees readyRx bits36 ∧
    bits36.length = codedLength readyRx.recs ∧
    readyRx.env.answers.fecDecode.head? = some (some (List.replicate 24 true, true)) ∧
    (List.replicate 24 true).length = readyRx.recs.tb0.tbs.toNat :=
  ⟨by decide, by decide, by decide, by decide, by decide, by decide, by decide, .inl (by decide), by decide, by decide, by decide⟩
/-- A3, a refused growth, growth, and a carrier within capacity. -/
theorem witness_SaSetCarrier : unitsInv unitsTx = true ∧ errinfo .saSetCarrier (withRegs [(0x008, 276)] unitsTx) = 0x12 ∧
    errinfo .saSetCarrier (withAnswers (fun a => { a with alloc := [false] }) (withRegs [(0x00B, 4)] unitsTx)) = 0x64 ∧
    reg (after .saSetCarrier (withRegs [(0x008, 275)] unitsTx)) 0x021 = 275 ∧ errinfo .saSetCarrier unitsTx = 0 := by decide
theorem witness_BaseZero : State.reset.sa.state = .noCarrier ∧ unitsTx.sa.state ≠ .noCarrier ∧
    unitsTx.sa.car.nports.toNat = 1 ∧ nsymb unitsTx.sa.car.cp * (12 * unitsTx.sa.car.nprb.toNat) = 168 := by decide
/-- Message length 128 and positions (0, 0), (1, 143): the last ones inside the region. -/
theorem witness_PdcchPutCompletes :
    (let s := withRegs [(0x0CA, 128)] withCoreset
     s.sa.state = .carrierSet ∧ s.sa.csValid = true ∧ s.args.pd.msgLen.toNat ≤ 128 ∧
     ∀ e ∈ ([(0, 0, ⟨1⟩), (1, 143, ⟨2⟩)] : List (Nat × Nat × Sample)), e.1 < s.sa.coreset.dur.toNat ∧
       e.2.1 < 12 * s.sa.car.nprb.toNat ∧ (s.sa.coreset.freqHi ++ s.sa.coreset.freqLo).getLsbD (e.2.1 / 12 / 6) = true) ∧
    errinfo .pdcchPut (withAnswers (fun a => { a with pdcchDmrs := [some [(0, 0, ⟨1⟩)]], pdcchEncode := [some [(1, 143, ⟨2⟩)]] })
      (withRegs [(0x0CA, 128)] withCoreset)) = 0 := by decide
/-- A8, A9 (length 129), a refused first call, A10, a refused second call, A11 (step 2's position outside). -/
theorem witness_PutChecks_pdcch :
    [errinfo .pdcchPut unitsTx, errinfo .pdcchPut (withRegs [(0x0CA, 129)] withCoreset)] = [0x011, 0x01F] ∧
    ([([none], []), ([some [(2, 0, ⟨1⟩)]], []), ([some [(1, 143, ⟨8⟩)]], [none]),
      ([some [(1, 143, ⟨8⟩)]], [some [(0, 144, ⟨9⟩)]])] : List (List (Option (List (Nat × Nat × Sample))) × List _)).map
      (fun x =>
        let s := withAnswers (fun a => { a with pdcchDmrs := x.1, pdcchEncode := x.2 }) withCoreset
        (errinfo .pdcchPut s, (after .pdcchPut s).mem.slotbuf[0].length)) =
    [(0x182, 0), (0x123, 0), (0x282, 1), (0x223, 1)] := by decide
/-- K14 in step 1; the DMRS values refused, one short; K18 in step 2, whose DMRS stays; a failed Seq.gen in step 2; no codeword
enabled. -/
theorem witness_PutChecks_pdsch :
    [withRegs [(0x0C3, 1)] readyTx, withAnswers (fun a => { a with dmrsVals := [none] }) readyTx,
      withAnswers (fun a => { a with dmrsVals := [some (List.replicate 5 ⟨7⟩)] }) readyTx, withRegs [(0x086, 37)] readyTx,
      withAnswers (fun a => { a with seqGen := [none] }) readyTx, withRegs [(0x080, 0)] readyTx].map
      (fun s => (errinfo .pdschPut s, (after .pdschPut s).mem.slotbuf[0].length)) =
    [(0x142, 0), (0x182, 0), (0x182, 0), (0x263, 6), (0x282, 6), (0, 6)] := by decide
/-- Two ports: both transforms succeed; antenna 1's, the last, fails. -/
theorem witness_GenSignal :
    (let s := withAnswers (fun a => { a with transform := [true, true] }) twoPorts
     s.sa.state = .carrierSet ∧
       s.env.answers.transform.take s.sa.car.nports.toNat = List.replicate s.sa.car.nports.toNat true) ∧
    (let s := withAnswers (fun a => { a with transform := [true, false] }) twoPorts
     s.sa.state = .carrierSet ∧ 1 < s.sa.car.nports.toNat ∧
       s.env.answers.transform.take (1 + 1) = List.replicate 1 true ++ [false]) ∧
    State.reset.sa.state = .noCarrier := by decide

end Sys2Proof.Tests
end

/-! SUPPORT. How commands end: the error classes each rule can raise (R310 to R312), the system registers it leaves to the
completion (R318), and the length of a BUSY interval in turns (R364, log 7). -/

namespace Sys2Proof.CommandEnds

open Sys2Proof.Machine Sys2Proof.Config Sys2Proof.Claims

/-! ## Errors (R310, R311, R316) -/

/-- R311: every code a command can raise is in the table of codes. -/
theorem errCodeNum_mem_knownCodes (c : ErrCode) : errCodeNum c ∈ knownCodes := by cases c <;> decide

/-- The code that a list of checks raises stands in one of its lines. -/
theorem mem_codes_of_firstFailing {lines : List (Bool × ErrCode)} {c : ErrCode} (h : firstFailing lines = some c) :
    c ∈ lines.map Prod.snd := by
  induction lines with
  | nil => simp at h
  | cons line rest ih =>
    obtain ⟨fails, code⟩ := line
    rw [firstFailing_cons] at h
    split at h
    · simp_all
    · exact List.mem_cons_of_mem _ (ih h)

/-- Every error of a computation has its class in `cs`. -/
def RaisesOnly {α : Type} (cs : List (BitVec 3)) (r : Except Raised α) : Prop :=
  ∀ e, r = .error e → errClassNum e.code ∈ cs

theorem raisesOnly_ok {α : Type} (cs : List (BitVec 3)) (x : α) : RaisesOnly cs (.ok x) := nofun

theorem raisesOnly_error {α : Type} {cs : List (BitVec 3)} {code : ErrCode} {step : BitVec 4}
    (h : errClassNum code ∈ cs) : RaisesOnly cs (.error { code := code, step := step } : Except Raised α) := by
  rintro _ ⟨⟩
  exact h

theorem RaisesOnly.bind {α β : Type} {cs : List (BitVec 3)} {r : Except Raised α} {k : α → Except Raised β}
    (hr : RaisesOnly cs r) (hk : ∀ x, RaisesOnly cs (k x)) : RaisesOnly cs (r >>= k) := by
  cases r with
  | ok x => exact hk x
  | error e => exact raisesOnly_error (hr e rfl)

theorem RaisesOnly.mono {α : Type} {cs ds : List (BitVec 3)} {r : Except Raised α} (hr : RaisesOnly cs r) (h : cs ⊆ ds) :
    RaisesOnly ds r :=
  fun e he => h (hr e he)

/-- A list of checks raises only the classes of the codes in its lines. -/
theorem raisesOnly_guardLines {cs : List (BitVec 3)} {step : BitVec 4} {lines : List (Bool × ErrCode)}
    (codes : List ErrCode) (hl : lines.map Prod.snd = codes) (hc : ∀ c ∈ codes, errClassNum c ∈ cs) :
    RaisesOnly cs (guardLines step lines) := by
  rcases guardLines_cases step lines with ⟨hok, -⟩ | ⟨c, herr, hf⟩
  · rw [hok]
    exact raisesOnly_ok cs ()
  · rw [herr]
    exact raisesOnly_error (hc c (hl ▸ mem_codes_of_firstFailing hf))

/-! ## The end of a rule (R318) -/

/-- A rule run from `s` that leaves the system registers to its completion and raises only errors of the classes `cs`. -/
def EndsIn (cs : List (BitVec 3)) (s : State) : CmdEnd → Prop
  | .done t => t.sys = s.sys
  | .raised e t => t.sys = s.sys ∧ errClassNum e.code ∈ cs

theorem endsIn_raised {cs : List (BitVec 3)} {s t : State} {code : ErrCode} {step : BitVec 4} (hs : t.sys = s.sys)
    (h : errClassNum code ∈ cs) : EndsIn cs s (.raised { code := code, step := step } t) :=
  ⟨hs, h⟩

theorem EndsIn.of_orRaise {α : Type} {cs : List (BitVec 3)} {s : State} {r : Except Raised α} {k : α → CmdEnd}
    (hr : RaisesOnly cs r) (hk : ∀ x, EndsIn cs s (k x)) : EndsIn cs s (orRaise r s k) := by
  cases r with
  | ok x => exact hk x
  | error e => exact ⟨rfl, hr e rfl⟩

/-- What a rule does is judged by the system registers it starts from. -/
theorem EndsIn.congr {cs : List (BitVec 3)} {s t : State} {r : CmdEnd} (h : EndsIn cs t r) (hs : t.sys = s.sys) :
    EndsIn cs s r := by
  cases r with
  | done u => exact Eq.trans h hs
  | raised e u => exact ⟨h.1.trans hs, h.2⟩

theorem EndsIn.of_andThen {cs : List (BitVec 3)} {s : State} {r : CmdEnd} {k : State → CmdEnd} (hr : EndsIn cs s r)
    (hk : ∀ t, EndsIn cs t (k t)) : EndsIn cs s (andThen r k) := by
  cases r with
  | done t => exact (hk t).congr hr
  | raised e t => exact hr

/-- R318: the outcome of a command run from `s` is the completion of a rule whose errors are of the classes `cs`. -/
def Completes (cs : List (BitVec 3)) (s : State) (o : Host.Outcome State Fault Refusal) : Prop :=
  ∃ r, o = finish r ∧ EndsIn cs s r

theorem completes_finish {cs : List (BitVec 3)} {s : State} {r : CmdEnd} (h : EndsIn cs s r) :
    Completes cs s (finish r) :=
  ⟨r, rfl, h⟩

/-- R318: a completed command has the system registers of a success or of one failure of its classes. -/
theorem Completes.success_or_failure {cs : List (BitVec 3)} {s : State} {o : Host.Outcome State Fault Refusal}
    (h : Completes cs s o) :
    ∃ t, o = .next t ∧
      (t.sys = (completed s).sys ∨
        ∃ cls code stp, t.sys = (failed cls code stp s).sys ∧ cls ∈ cs ∧ code ∈ knownCodes ∧ cls = classOfNum code) := by
  obtain ⟨r, rfl, hr⟩ := h
  refine ⟨finishState r, rfl, ?_⟩
  cases r with
  | done t => exact .inl (congrArg doneFlags hr)
  | raised e t =>
    obtain ⟨hsys, hcls⟩ := hr
    exact .inr ⟨errClassNum e.code, errCodeNum e.code, e.step, congrArg (fun y => doneFlags (errorFlags e y)) hsys, hcls,
      errCodeNum_mem_knownCodes e.code, rfl⟩

/-- R24, R318: a command run from `s` has completed in `t`. -/
def Completed (s t : State) : Prop :=
  t.sys.busy = false ∧ t.sys.done = true ∧ t.sys.cmdcnt = s.sys.cmdcnt + 1

/-- R24, R318: a completed command has cleared BUSY, set DONE and advanced CMDCNT. -/
theorem Completes.reaches_completed {cs : List (BitVec 3)} {s : State} {o : Host.Outcome State Fault Refusal}
    (h : Completes cs s o) :
    ∃ t, o = .next t ∧ Completed s t := by
  obtain ⟨t, ho, hsys | ⟨cls, code, stp, hsys, -⟩⟩ := h.success_or_failure <;>
    exact ⟨t, ho, by simp [Completed, hsys, completed, failed]⟩

/-! ## The Resource Allocation Engine (R144 to R165) -/

theorem slotNre_raises (step : BitVec 4) (p : Pattern) : RaisesOnly [1] (slotNre step p) := by
  have hg : RaisesOnly [1] (guardLines step (slotNreLines p)) :=
    raisesOnly_guardLines [.iiNoPrb, .iiEmptySymbols, .iiGrantField] rfl (by decide)
  unfold slotNre
  split
  next e he => exact raisesOnly_error (hg e he)
  next => exact raisesOnly_ok _ _

theorem tbsStep_raises (step : BitVec 4) (eff r qm nu : Nat) : RaisesOnly [4] (tbsStep step eff r qm nu) := by
  unfold tbsStep
  split
  · exact raisesOnly_error (by decide)
  · exact raisesOnly_ok _ _

theorem fillLookup_raises (r : Records) (mcs : BitVec 5) : RaisesOnly [4] (fillLookup r mcs) := by
  unfold fillLookup
  split
  · exact raisesOnly_error (by decide)
  · exact raisesOnly_ok _ _

theorem fillCount_raises (r : Records) : RaisesOnly [1] (fillCount r) :=
  (slotNre_raises 2 _).bind fun c =>
    (raisesOnly_guardLines [.iiGrantField] rfl (by decide)).bind fun _ => raisesOnly_ok _ c

theorem fillTb_raises (r : Records) (mcs : BitVec 5) : RaisesOnly [1, 2, 4] (fillTb r mcs) :=
  ((fillLookup_raises r mcs).mono (by decide)).bind fun _ =>
    ((fillCount_raises r).mono (by decide)).bind fun _ =>
      ((tbsStep_raises 3 _ _ _ _).mono (by decide)).bind fun _ => raisesOnly_ok _ _

theorem dciFreq_raises (dir : Bool) (a : ArgRegs) : RaisesOnly [1, 2] (dciFreq dir a) := by
  unfold dciFreq
  split
  · exact raisesOnly_error (by decide)
  · split
    · exact raisesOnly_error (by decide)
    · exact raisesOnly_ok _ _

theorem dciLookup_raises (dir : Bool) (a : ArgRegs) : RaisesOnly [4] (dciLookup dir a) := by
  unfold dciLookup
  split
  · exact raisesOnly_error (by decide)
  · exact raisesOnly_ok _ _

theorem dci2Grant_raises (dir : Bool) (a : ArgRegs) : RaisesOnly [1, 2, 4] (dci2Grant dir a) :=
  (raisesOnly_guardLines [.iiCarrier, .iiEnum, .iiEnum, .iiAssoc] rfl (by decide)).bind fun _ =>
    ((dciFreq_raises dir a).mono (by decide)).bind fun _ =>
      (raisesOnly_guardLines [.iiTdra, .iiEmptySymbols] rfl (by decide)).bind fun _ =>
        (raisesOnly_guardLines [.iiApt, .iiApt, .ucLayers, .iiLayersPorts, .iiDmrs, .iiApt, .iiApt] rfl (by decide)).bind
          fun _ =>
            ((dciLookup_raises dir a).mono (by decide)).bind fun _ =>
              ((slotNre_raises 4 _).mono (by decide)).bind fun _ =>
                ((tbsStep_raises 5 _ _ _ _).mono (by decide)).bind fun _ => raisesOnly_ok _ _

theorem execSlotNre_completes (s : State) : Completes [1] s (execSlotNre s) :=
  completes_finish (.of_orRaise (slotNre_raises 0 _) fun _ => rfl)

theorem execTbs_completes (s : State) : Completes [1, 4] s (execTbs s) := by
  refine completes_finish (.of_orRaise (raisesOnly_guardLines [.iiEnum] rfl (by decide)) fun _ => ?_)
  split
  · exact endsIn_raised rfl (by decide)
  · rfl

theorem execFillTb0_completes (s : State) : Completes [1, 2, 4] s (execFillTb0 s) :=
  completes_finish (.of_orRaise (fillTb_raises _ _) fun _ => rfl)

theorem execFillTb1_completes (s : State) : Completes [1, 2, 4] s (execFillTb1 s) :=
  completes_finish (endsIn_raised rfl (by decide))

theorem dci2GrantRule_endsIn (dir : Bool) (s : State) : EndsIn [1, 2, 4] s (dci2GrantRule dir s) := by
  unfold dci2GrantRule
  split
  next => rfl
  next e he => exact ⟨rfl, dci2Grant_raises dir s.args e he⟩

/-! ## The Data Pipe (R222 to R254) -/

theorem pipeInitRule_endsIn (role : Role) (s : State) : EndsIn [1, 3] s (pipeInitRule role s) := by
  refine .of_orRaise (raisesOnly_guardLines [.iiState, .iiInitArgs] rfl (by decide)) fun _ => ?_
  dsimp only
  split
  · rfl
  · exact endsIn_raised rfl (by decide)

theorem execPipeSetCarrier_completes (s : State) : Completes [1, 3] s (execPipeSetCarrier s) := by
  refine completes_finish (.of_orRaise (raisesOnly_guardLines [.iiState, .iiCarrier] rfl (by decide)) fun _ => ?_)
  split
  · split
    · rfl
    · exact endsIn_raised rfl (by decide)
  · rfl

/-- R225: the checks of a grant raise no error of class 4. -/
theorem checkGrant_raises (step : BitVec 4) (role : Role) (s : State) : RaisesOnly [1, 2, 3] (checkGrant step role s) :=
  raisesOnly_guardLines
    [.iiState, .iiRole, .iiGrantInvalid, .iiCarrierMismatch, .cePrb, .ceLayers, .ceCw, .iiNoPrb, .iiPrbRange,
      .iiEmptySymbols, .iiGrantField, .iiGrantField, .iiGrantField, .iiLayersPorts, .ucCw1, .ucPrecode] rfl (by decide)

/-- R229: the checks of a codeword raise errors of classes 1 and 3. -/
theorem checkCodeword_raises (step : BitVec 4) (role : Role) (s : State) : RaisesOnly [1, 3] (checkCodeword step role s) :=
  raisesOnly_guardLines [.iiGrantField, .iiPayloadLen, .iiPayloadLen, .ceRe, .iiNbits] rfl (by decide)

theorem encodeBody_endsIn (step : BitVec 4) (s : State) : EndsIn [1, 2, 3, 4] s (encodeBody step s) := by
  unfold encodeBody
  split
  · exact endsIn_raised rfl (by decide)
  · split
    · exact endsIn_raised rfl (by decide)
    · rfl

theorem encodeRule_endsIn (step : BitVec 4) (s : State) : EndsIn [1, 2, 3, 4] s (encodeRule step s) := by
  refine .of_orRaise ((checkGrant_raises step _ s).mono (by decide)) fun _ => ?_
  split
  · exact .of_orRaise ((checkCodeword_raises step _ s).mono (by decide)) fun _ => encodeBody_endsIn step s
  · rfl

theorem decodeAfterChest_sys (s : State) : (decodeAfterChest s).sys = s.sys := by
  simp [decodeAfterChest]

theorem decodeAfterSeq_sys (s : State) : (decodeAfterSeq s).sys = s.sys := by
  simp [decodeAfterSeq, decodeAfterChest_sys]

theorem decodeAfterFec_sys (s : State) (xh : List (List Sample)) (c : List Bool) :
    (decodeAfterFec s xh c).sys = s.sys := by
  simp [decodeAfterFec, decodeAfterSeq_sys]

theorem decodeBody_endsIn (s : State) : EndsIn [1, 2, 3, 4] s (decodeBody s) := by
  unfold decodeBody
  split
  · exact endsIn_raised (decodeAfterChest_sys s) (by decide)
  next xh _ =>
    split
    · exact endsIn_raised (decodeAfterSeq_sys s) (by decide)
    next c _ =>
      split
      · exact endsIn_raised (decodeAfterFec_sys s xh c) (by decide)
      · exact decodeAfterFec_sys s xh c

theorem decodeRule_endsIn (s : State) : EndsIn [1, 2, 3, 4] s (decodeRule s) := by
  refine .of_orRaise ((checkGrant_raises 0 _ s).mono (by decide)) fun _ => ?_
  split
  · exact .of_orRaise ((checkCodeword_raises 0 _ s).mono (by decide)) fun _ => decodeBody_endsIn s
  · rfl

/-! ## The Slot Assembler (R271 to R279) -/

theorem execSaSetCarrier_completes (s : State) : Completes [1, 3] s (execSaSetCarrier s) := by
  refine completes_finish (.of_orRaise (raisesOnly_guardLines [.iiCarrier] rfl (by decide)) fun _ => ?_)
  dsimp only
  split
  · split
    · rfl
    · exact endsIn_raised rfl (by decide)
  · rfl

theorem execSaSetCoreset_completes (s : State) : Completes [1] s (execSaSetCoreset s) :=
  completes_finish (.of_orRaise (raisesOnly_guardLines [.iiCoreset] rfl (by decide)) fun _ => rfl)

theorem execBaseZero_completes (s : State) : Completes [1] s (execBaseZero s) :=
  completes_finish (.of_orRaise (raisesOnly_guardLines [.iiState] rfl (by decide)) fun _ => rfl)

theorem pdcchPlace_endsIn (step : BitVec 4) (ans : Option (List (Nat × Nat × Sample))) (s : State) :
    EndsIn [1, 4] s (pdcchPlace step ans s) := by
  rcases pdcchPlace_cases step ans s with ⟨-, h⟩ | ⟨w, -, ⟨-, h⟩ | ⟨-, h⟩⟩ <;> rw [h]
  · exact endsIn_raised rfl (by decide)
  · rfl
  · exact endsIn_raised rfl (by decide)

theorem execPdcchPut_completes (s : State) : Completes [1, 4] s (execPdcchPut s) := by
  refine completes_finish (.of_orRaise (raisesOnly_guardLines [.iiState, .iiPayloadLen] rfl (by decide)) fun _ => ?_)
  exact .of_andThen ((pdcchPlace_endsIn 1 _ (pdcchDmrsCalled s)).congr rfl)
    fun t => (pdcchPlace_endsIn 2 _ (pdcchEncodeCalled t)).congr rfl

theorem pdschStep1_endsIn (s : State) : EndsIn [1, 2, 3, 4] s (pdschStep1 s) := by
  refine .of_orRaise ((checkGrant_raises 1 _ s).mono (by decide)) fun _ => ?_
  split
  · exact endsIn_raised rfl (by decide)
  · rfl

/-- R279: only a refused transform ends the antennas in an error, of class 4. -/
theorem genAntennas_endsIn (antennas : List Nat) (s : State) : EndsIn [1, 4] s (genAntennas antennas s) := by
  induction antennas generalizing s with
  | nil => rfl
  | cons a rest ih =>
    simp only [genAntennas]
    split
    · exact (ih (transformed a s)).congr rfl
    · exact endsIn_raised rfl (by decide)

theorem execGenSignal_completes (s : State) : Completes [1, 4] s (execGenSignal s) :=
  completes_finish
    (.of_orRaise (raisesOnly_guardLines [.iiState] rfl (by decide)) fun _ => genAntennas_endsIn _ s)

/-! ## Every command (R14, R312, R368) -/

/-- R14, R312: every command completes, its errors of the classes the table lists for it. -/
theorem exec_completes (i : Instr) (s : State) : Completes (classesOf i) s (exec i s) := by
  cases i with
  | rateFromMcs => exact completes_finish rfl
  | modFromMcs => exact completes_finish rfl
  | slotNre => exact execSlotNre_completes s
  | tbs => exact execTbs_completes s
  | fillTb0 => exact execFillTb0_completes s
  | fillTb1 => exact execFillTb1_completes s
  | dci2GrantDl => exact completes_finish (dci2GrantRule_endsIn false s)
  | dci2GrantUl => exact completes_finish (dci2GrantRule_endsIn true s)
  | pipeInitTx => exact completes_finish (pipeInitRule_endsIn .transmitter s)
  | pipeInitRx => exact completes_finish (pipeInitRule_endsIn .receiver s)
  | pipeSetCarrier => exact execPipeSetCarrier_completes s
  | pipeFree => exact completes_finish rfl
  | encode => exact completes_finish (encodeRule_endsIn 0 s)
  | decode => exact completes_finish (decodeRule_endsIn s)
  | saSetCarrier => exact execSaSetCarrier_completes s
  | saSetCoreset => exact execSaSetCoreset_completes s
  | baseZero => exact execBaseZero_completes s
  | pdcchPut => exact execPdcchPut_completes s
  | pdschPut => exact completes_finish (.of_andThen (pdschStep1_endsIn s) (encodeRule_endsIn 2))
  | genSignal => exact execGenSignal_completes s

/-- R102, R318: a reserved word completes too, in an error of class 1. -/
theorem reservedWord_completes (s : State) : Completes [1] s (reservedWord s) := completes_finish (endsIn_raised rfl (by decide))

/-! ## Turns and steps (R350, R364, R366) -/

/-- R318: with a command in flight the executor's turn completes it, whatever its word. -/
theorem executorTurn_completes {s : State} (hb : s.sys.busy = true) : ∃ cs, Completes cs s (executorTurn s) := by
  unfold executorTurn
  rw [if_pos hb]
  split
  next i _ => exact ⟨classesOf i, exec_completes i s⟩
  next => exact ⟨[1], reservedWord_completes s⟩

theorem executorTurn_idle {s : State} (hb : s.sys.busy = false) : executorTurn s = .next s := by
  simp [executorTurn, hb]

theorem executorTurn_next (s : State) : ∃ t, executorTurn s = .next t := by
  cases hb : s.sys.busy with
  | false => exact ⟨s, executorTurn_idle hb⟩
  | true =>
    obtain ⟨cs, r, h, -⟩ := executorTurn_completes hb
    exact ⟨finishState r, h⟩

theorem runTurn_next (t : Turn) (s : State) : ∃ u, runTurn t s = .next u := by
  cases t with
  | host x => exact ⟨_, hostAccess_next x s⟩
  | executor => exact executorTurn_next s
  | reset => exact ⟨hardReset s, rfl⟩

/-- R14, R368: no step stops the machine. -/
theorem step_next (s : State) : ∃ t, step s = .next t := by
  cases h : s.env.schedule with
  | nil => exact step_nil s h ▸ executorTurn_next s
  | cons t rest => exact step_cons s t rest h ▸ runTurn_next t _

/-- R366: an access while BUSY = 1 leaves the turns to come as they were. -/
theorem busyAccess_schedule (x : HostAccess) (s : State) : (busyAccess x s).env.schedule = s.env.schedule := by
  cases x with
  | regRead a => simp only [busyAccess]; split <;> simp
  | _ => simp [busyAccess]

/-- R366: an access while BUSY = 1 leaves the command in flight and CMDCNT as it was. -/
theorem busyAccess_keeps_flight (x : HostAccess) (s : State) :
    (busyAccess x s).sys.busy = s.sys.busy ∧ (busyAccess x s).sys.cmdcnt = s.sys.cmdcnt := by
  obtain ⟨-, -, -, -, -, -, -, h | h⟩ := busyAccess_frame x s <;> rw [h] <;> exact ⟨rfl, rfl⟩

theorem step_host_busy {s : State} {x : HostAccess} {rest : List Turn} (h : s.env.schedule = .host x :: rest)
    (hb : s.sys.busy = true) : step s = .next (busyAccess x (turnTaken rest s)) := by
  simp [step_cons s _ rest h, runTurn, hostAccess_next, hb]

theorem step_of_executorNext {s : State} (hx : ExecutorNext s) (hb : s.sys.busy = true) :
    ∃ t, step s = .next t ∧ Completed s t := by
  obtain hhead | hnil := hx
  · obtain ⟨rest, h⟩ := List.head?_eq_some_iff.mp hhead
    obtain ⟨cs, hc⟩ := executorTurn_completes (s := turnTaken rest s) hb
    rw [step_cons s _ rest h]
    exact hc.reaches_completed
  · obtain ⟨cs, hc⟩ := executorTurn_completes hb
    rw [step_nil s hnil]
    exact hc.reaches_completed

/-- R364: from BUSY = 1 the machine reaches BUSY = 0 in at most one step more than the turns scheduled; without a reset
among them the command has then completed. By induction on the schedule: the executor or a reset ends the interval, a host
access only uses up its own turn. -/
theorem busy_interval_ends {turns : List Turn} {s : State} (hs : s.env.schedule = turns) (hb : s.sys.busy = true) :
    ∃ n t, n ≤ turns.length + 1 ∧ StepsTo n s t ∧ t.sys.busy = false ∧ (.reset ∉ turns → Completed s t) := by
  induction turns generalizing s with
  | nil =>
    obtain ⟨t, hstep, hdone⟩ := step_of_executorNext (.inr hs) hb
    exact ⟨1, t, by simp, ⟨t, hstep, rfl⟩, hdone.1, fun _ => hdone⟩
  | cons turn rest ih =>
    cases turn with
    | executor =>
      obtain ⟨t, hstep, hdone⟩ := step_of_executorNext (.inl (by rw [hs]; rfl)) hb
      exact ⟨1, t, by simp, ⟨t, hstep, rfl⟩, hdone.1, fun _ => hdone⟩
    | reset =>
      have hstep : step s = .next (hardReset (turnTaken rest s)) := step_cons s .reset rest hs
      exact ⟨1, _, by simp, ⟨_, hstep, rfl⟩, rfl, fun h => absurd List.mem_cons_self h⟩
    | host x =>
      obtain ⟨hbusy, hcnt⟩ := busyAccess_keeps_flight x (turnTaken rest s)
      obtain ⟨n, t, hn, hsteps, hidle, hdone⟩ := ih (busyAccess_schedule x (turnTaken rest s)) (hbusy.trans hb)
      refine ⟨n + 1, t, by simpa using hn, ⟨_, step_host_busy hs hb, hsteps⟩, hidle, fun hr => ?_⟩
      obtain ⟨hb0, hd, hc⟩ := hdone fun hmem => hr (List.mem_cons_of_mem _ hmem)
      exact ⟨hb0, hd, by rw [hc, hcnt, turnTaken_sys]⟩

/-- Settles O18: the ends of commands by cases over the command, the BUSY interval by induction on the schedule. -/
theorem everyCommandEnds : Obligations.EveryCommandEnds := by
  refine ⟨fun i s => (exec_completes i s).success_or_failure, step_next, fun s hb => ?_⟩
  obtain ⟨n, t, hn, hsteps, hidle, hdone⟩ := busy_interval_ends rfl hb
  exact ⟨n, t, hn, hsteps, hidle, fun hr => (hdone hr).2⟩

end Sys2Proof.CommandEnds

/-! SUPPORT. The register port (R21 to R49, R69): which block of registers an address falls in, what every register of a
block has in common, and the statements about reads and writes of the port. -/

namespace Sys2Proof.RegisterPort

open Sys2Proof.Machine Sys2Proof.Config Sys2Proof.Claims

/-! ## The tables of the address map (R33 to R36, R41, R43, R46) -/

/-- R33: HL_TDRA[i]. -/
def tdraReg (dir : Bool) (i : Nat) : Reg :=
  hlReg dir (fun b => rowAt b.tdra i) fun v b => { b with tdra := b.tdra.setIfInBounds i v }
/-- R34: HL_APT[i]. -/
def aptReg (dir : Bool) (i : Nat) : Reg :=
  hlReg dir (fun b => rowAt b.apt i) fun v b => { b with apt := b.apt.setIfInBounds i v }
/-- R35: HL_DMRS[i]. -/
def dmrsReg (dir : Bool) (i : Nat) : Reg :=
  hlReg dir (fun b => rowAt b.dmrs i) fun v b => { b with dmrs := b.dmrs.setIfInBounds i v }
/-- R36: HL_RSV[l]. -/
def rsvReg (dir : Bool) (l : Nat) : Reg :=
  hlReg dir (fun b => rowAt b.rsv l) fun v b => { b with rsv := b.rsv.setIfInBounds l v }

/-- R31: the word address of offset o of an HL bank. -/
def hlBase (dir : Bool) : Nat := if dir then 0x180 else 0x100

theorem hlBase_le (dir : Bool) : hlBase dir ≤ 0x180 := by cases dir <;> decide

theorem hlRegAt_tdra (dir : Bool) {i : Nat} (h : i < 16) : hlRegAt dir (0x10 + i) = some (tdraReg dir i) := by
  simp [hlRegAt, tdraReg, show ¬ 0x10 + i = 1 by omega, show ¬ 0x10 + i = 2 by omega, show 0x10 + i < 0x20 by omega]

theorem hlRegAt_apt (dir : Bool) {i : Nat} (h : i < 32) : hlRegAt dir (0x20 + i) = some (aptReg dir i) := by
  simp [hlRegAt, aptReg, show ¬ 0x20 + i = 1 by omega, show ¬ 0x20 + i = 2 by omega, show 0x20 + i < 0x40 by omega,
    show ¬ 0x20 + i < 0x20 by omega]

theorem hlRegAt_dmrs (dir : Bool) {i : Nat} (h : i < 4) : hlRegAt dir (0x40 + i) = some (dmrsReg dir i) := by
  simp [hlRegAt, dmrsReg, show ¬ 0x40 + i = 1 by omega, show ¬ 0x40 + i = 2 by omega, show 0x40 + i < 0x44 by omega,
    show ¬ 0x40 + i < 0x40 by omega, show ¬ 0x40 + i < 0x20 by omega]

theorem hlRegAt_rsv (dir : Bool) {i : Nat} (h : i < 14) : hlRegAt dir (0x50 + i) = some (rsvReg dir i) := by
  simp [hlRegAt, rsvReg, show ¬ 0x50 + i = 1 by omega, show ¬ 0x50 + i = 2 by omega, show 0x50 + i < 0x5E by omega,
    show ¬ 0x50 + i < 0x44 by omega, show ¬ 0x50 + i < 0x40 by omega, show ¬ 0x50 + i < 0x20 by omega]

theorem regAt_hl (dir : Bool) {o : Nat} (h : o < 0x80) : regAt (hlBase dir + o) = hlRegAt dir o := by
  cases dir
  · have hlow : ∀ n ≤ 0x100, ¬ 0x100 + o < n := by omega
    simp [regAt, hlBase, hlow, show 0x100 + o < 0x180 by omega]
  · have hlow : ∀ n ≤ 0x180, ¬ 0x180 + o < n := by omega
    simp [regAt, hlBase, hlow]

theorem regAt_mask {i : Nat} (h : i < 9) : regAt (0x070 + i) = some (maskReg i) := by
  have hlow : ∀ n ≤ 0x070, ¬ 0x070 + i < n := by omega
  simp [regAt, hlow, show 0x070 + i < 0x079 by omega]

theorem regAt_cfgRsv {i : Nat} (h : i < 14) : regAt (0x0A4 + i) = some (cfgRsvReg i) := by
  have hlow : ∀ n ≤ 0x0A4, ¬ 0x0A4 + i < n := by omega
  simp [regAt, hlow, show 0x0A4 + i < 0x0B2 by omega]

theorem regAt_pdMsg {i : Nat} (h : i < 4) : regAt (0x0CC + i) = some (pdMsgReg i) := by
  have hlow : ∀ n ≤ 0x0CC, ¬ 0x0CC + i < n := by omega
  simp [regAt, hlow, show 0x0CC + i < 0x0D0 by omega]

/-! ## Reads (R21) -/

theorem regRead_of_regAt {a : BitVec 9} {r : Reg} (h : regAt a.toNat = some r) (s : State) :
    regRead a s = (r.get s).setWidth 32 := by simp [regRead, h]

theorem regRead_unmapped {a : BitVec 9} (h : regAt a.toNat = none) (s : State) : regRead a s = 0 := by simp [regRead, h]

theorem regRead_ofNat {a : Nat} {r : Reg} (ha : a < 512) (h : regAt a = some r) (s : State) :
    regRead (BitVec.ofNat 9 a) s = (r.get s).setWidth 32 :=
  regRead_of_regAt (by rwa [BitVec.toNat_ofNat, Nat.mod_eq_of_lt ha]) s

/-- R33 to R36: the row of a table of an HL bank, read at its address. -/
theorem regRead_hl (dir : Bool) {o : Nat} {r : Reg} (ho : o < 0x80) (h : hlRegAt dir o = some r) (s : State) :
    regRead (BitVec.ofNat 9 (hlBase dir + o)) s = (r.get s).setWidth 32 :=
  regRead_ofNat (by have := hlBase_le dir; omega) ((regAt_hl dir ho).trans h) s

theorem hlBase_add (dir : Bool) (n i : Nat) : (if dir then 0x180 else 0x100) + n + i = hlBase dir + (n + i) := by
  rw [Nat.add_assoc, hlBase]

/-- Settles O10: each table by the lemma that finds its rows in the address map. -/
theorem tablesAtTheirAddresses : Obligations.TablesAtTheirAddresses := by
  intro s
  refine ⟨fun dir i => ?_, fun i h => ?_, fun i h => ?_, fun i h => ?_⟩
  · simp only [hlBase_add]
    refine ⟨fun h => ?_, fun h => ?_, fun h => ?_, fun h => ?_⟩
    · exact regRead_hl dir (by omega) (hlRegAt_tdra dir h) s
    · exact regRead_hl dir (by omega) (hlRegAt_apt dir h) s
    · exact regRead_hl dir (by omega) (hlRegAt_dmrs dir h) s
    · exact regRead_hl dir (by omega) (hlRegAt_rsv dir h) s
  · exact (regRead_ofNat (by omega) (regAt_mask h) s).trans (BitVec.setWidth_eq _)
  · exact regRead_ofNat (by omega) (regAt_cfgRsv h) s
  · exact (regRead_ofNat (by omega) (regAt_pdMsg h) s).trans (BitVec.setWidth_eq _)

/-- A one-bit register reads as its flag. -/
@[simp] theorem setWidth_ofBool (b : Bool) : (BitVec.ofBool b).setWidth 32 = bitWord b := by cases b <;> rfl

theorem regRead_eq_of_get {a : Nat} {r : Reg} {s : State} {w : Word} (h : regAt a = some r)
    (hw : (r.get s).setWidth 32 = w) (ha : a < 512 := by decide) : regRead (BitVec.ofNat 9 a) s = w :=
  (regRead_ofNat ha h s).trans hw

/-- Settles O11: group by group of the list, each address is found in the map and its field read. -/
theorem scalarRegistersAtTheirAddresses : Obligations.ScalarRegistersAtTheirAddresses := by
  intro s
  simp only [scalarReads, List.forall_mem_append, List.forall_mem_cons, List.not_mem_nil, false_implies, implies_true,
    and_true]
  refine ⟨⟨⟨⟨⟨⟨⟨⟨⟨⟨⟨⟨?system, ?carrier⟩, ?units⟩, ?coreset⟩, ?dci⟩, ?op⟩, ?res⟩, ?grant⟩, ?tb⟩, ?cfg⟩, ?call⟩, ?rx⟩, ?hl⟩
  case units =>
    refine ⟨?pipeState, ?role, ?_, ?_, ?_, ?_, ?saState, ?_, ?_, ?_⟩
    case pipeState => cases h : s.pipe.state <;> exact regRead_eq_of_get rfl (by simp [roReg, pipeStateCode, h])
    case role => cases h : s.pipe.role <;> exact regRead_eq_of_get rfl (by simp [roReg, roleCode, h])
    case saState => cases h : s.sa.state <;> exact regRead_eq_of_get rfl (by simp [roReg, saStateCode, h])
    all_goals exact regRead_eq_of_get rfl (by simp [roReg])
  all_goals and_intros <;> exact regRead_eq_of_get rfl (by simp [roReg, argReg, recReg, hlReg, hlBank])

/-! ## Packed registers (R23, R49, R119 to R124) -/

theorem extractLsb'_setWidth_beyond {w : Nat} (x : BitVec w) {n start len : Nat} (h : w ≤ start) :
    (x.setWidth n).extractLsb' start len = 0 := by
  refine BitVec.eq_of_getLsbD_eq fun i _ => ?_
  simp [BitVec.getLsbD_of_ge x (start + i) (by omega)]

/-- R23: the fields of STATUS. -/
theorem statusWord_fields (y : SystemRegs) :
    (statusWord y).getLsbD 0 = y.busy ∧ (statusWord y).getLsbD 1 = y.done ∧ (statusWord y).getLsbD 2 = y.err ∧
      (statusWord y).getLsbD 3 = y.haz ∧ (statusWord y).extractLsb' 4 3 = y.errClass ∧
      (statusWord y).getLsbD 7 = false ∧ (statusWord y).extractLsb' 8 8 = y.lastOp ∧
      (statusWord y).extractLsb' 16 16 = 0 := by
  refine ⟨?_, ?_, ?_, ?_, ?errClass, ?_, ?lastOp, ?rest⟩
  case errClass =>
    rw [statusWord, BitVec.extractLsb'_append_eq_of_add_le (by decide), BitVec.extractLsb'_append_eq_of_add_le (by decide),
      BitVec.extractLsb'_append_eq_of_add_le (by decide), BitVec.extractLsb'_append_eq_of_le (by decide)]
    simp
  case lastOp =>
    rw [statusWord, BitVec.extractLsb'_append_eq_of_add_le (by decide), BitVec.extractLsb'_append_eq_of_le (by decide)]
    simp
  case rest =>
    rw [statusWord, BitVec.extractLsb'_append_eq_of_le (by decide)]
    simp
  all_goals simp only [statusWord, BitVec.getLsbD_append]; simp

/-- R23: the fields of ERRINFO. -/
theorem errinfoWord_fields (y : SystemRegs) :
    (errinfoWord y).extractLsb' 0 8 = y.errCode ∧ (errinfoWord y).extractLsb' 8 4 = y.errStep ∧
      (errinfoWord y).extractLsb' 12 20 = 0 := by
  unfold errinfoWord
  refine ⟨?code, ?step, ?rest⟩
  case code =>
    rw [BitVec.extractLsb'_append_eq_of_add_le (by decide), BitVec.extractLsb'_append_eq_of_add_le (by decide)]
    simp
  case step =>
    rw [BitVec.extractLsb'_append_eq_of_add_le (by decide), BitVec.extractLsb'_append_eq_of_le (by decide)]
    simp
  case rest =>
    rw [BitVec.extractLsb'_append_eq_of_le (by decide)]
    simp

/-- R123: the fields of a packed carrier. -/
theorem packCar_fields (c : Carrier) : PacksCarrier ((packCar c).setWidth 32) c := by
  refine ⟨?nprb, ?mu, ?cp, ?nports, extractLsb'_setWidth_beyond _ (by decide)⟩
  case nprb =>
    rw [BitVec.extractLsb'_setWidth_of_le (by decide), packCar, BitVec.extractLsb'_append_eq_of_add_le (by decide),
      BitVec.extractLsb'_append_eq_of_add_le (by decide), BitVec.extractLsb'_append_eq_of_add_le (by decide)]
    simp
  case mu =>
    rw [BitVec.extractLsb'_setWidth_of_le (by decide), packCar, BitVec.extractLsb'_append_eq_of_add_le (by decide),
      BitVec.extractLsb'_append_eq_of_add_le (by decide), BitVec.extractLsb'_append_eq_of_le (by decide)]
    simp
  case cp =>
    simp only [BitVec.getLsbD_setWidth, packCar, BitVec.getLsbD_append]
    simp
  case nports =>
    rw [BitVec.extractLsb'_setWidth_of_le (by decide), packCar, BitVec.extractLsb'_append_eq_of_le (by decide)]
    simp

/-- R124: the fields of RES_RATE. -/
theorem rateWord_fields (r : ResRegs) :
    (rateWord r).getLsbD 31 = r.rateInvalid ∧ (rateWord r).extractLsb' 0 12 = r.rate ∧
      (rateWord r).extractLsb' 12 19 = 0 := by
  unfold rateWord
  refine ⟨?invalid, ?rate, ?rest⟩
  case invalid =>
    simp only [BitVec.getLsbD_append]
    simp
  case rate =>
    rw [BitVec.extractLsb'_append_eq_of_add_le (by decide), BitVec.extractLsb'_append_eq_of_add_le (by decide)]
    simp
  case rest =>
    rw [BitVec.extractLsb'_append_eq_of_add_le (by decide), BitVec.extractLsb'_append_eq_of_le (by decide)]
    simp

/-- R49: the fields of RX_CRC[c]. -/
theorem crcWord_fields (c : RxCw) : PacksCrc ((crcWord c).setWidth 32) c := by
  refine ⟨?_, ?_, extractLsb'_setWidth_beyond _ (by decide)⟩ <;>
    simp only [BitVec.getLsbD_setWidth, crcWord, BitVec.getLsbD_append] <;> simp

/-- R119: the fields of a time-domain row as it reads. -/
theorem tdra_fields (row : BitVec 10) :
    (row.setWidth 32).getLsbD 0 = tdraValid row ∧ (row.setWidth 32).getLsbD 1 = tdraMap row ∧
      (row.setWidth 32).extractLsb' 2 4 = tdraS row ∧ (row.setWidth 32).extractLsb' 6 4 = tdraL row ∧
      (row.setWidth 32).extractLsb' 10 22 = 0 :=
  ⟨BitVec.getLsbD_setWidth .., BitVec.getLsbD_setWidth .., BitVec.extractLsb'_setWidth_of_le (by decide),
    BitVec.extractLsb'_setWidth_of_le (by decide), extractLsb'_setWidth_beyond row (by decide)⟩

/-- R120: the fields of an antenna-port row as it reads. -/
theorem apt_fields (row : BitVec 15) :
    (row.setWidth 32).getLsbD 0 = aptValid row ∧ (row.setWidth 32).extractLsb' 1 2 = aptNcg row ∧
      (row.setWidth 32).extractLsb' 3 12 = aptPorts row ∧ (row.setWidth 32).extractLsb' 15 17 = 0 :=
  ⟨BitVec.getLsbD_setWidth .., BitVec.extractLsb'_setWidth_of_le (by decide),
    BitVec.extractLsb'_setWidth_of_le (by decide), extractLsb'_setWidth_beyond row (by decide)⟩

/-- R121: the fields of a DMRS row as it reads. -/
theorem dmrs_fields (row : BitVec 16) :
    (row.setWidth 32).getLsbD 0 = dmrsValid row ∧ (row.setWidth 32).getLsbD 1 = dmrsType row ∧
      (row.setWidth 32).extractLsb' 2 14 = dmrsSym row ∧ (row.setWidth 32).extractLsb' 16 16 = 0 :=
  ⟨BitVec.getLsbD_setWidth .., BitVec.getLsbD_setWidth .., BitVec.extractLsb'_setWidth_of_le (by decide),
    extractLsb'_setWidth_beyond row (by decide)⟩

theorem regRead_status (s : State) : regRead 0x001 s = statusWord s.sys := regRead_eq_of_get rfl (BitVec.setWidth_eq _)
theorem regRead_errinfo (s : State) : regRead 0x002 s = errinfoWord s.sys := regRead_eq_of_get rfl (BitVec.setWidth_eq _)
theorem regRead_pipeCar (s : State) : regRead 0x01E s = (packCar s.pipe.car).setWidth 32 := regRead_eq_of_get rfl rfl
theorem regRead_saCar (s : State) : regRead 0x023 s = (packCar s.sa.car).setWidth 32 := regRead_eq_of_get rfl rfl
theorem regRead_rate (s : State) : regRead 0x05C s = rateWord s.res := regRead_eq_of_get rfl (BitVec.setWidth_eq _)
theorem regRead_crc0 (s : State) : regRead 0x0D0 s = (crcWord s.rx.cw0).setWidth 32 := regRead_eq_of_get rfl rfl
theorem regRead_crc1 (s : State) : regRead 0x0D1 s = (crcWord s.rx.cw1).setWidth 32 := regRead_eq_of_get rfl rfl

/-- Settles O9: each packed register by the lemma on its word, each row of an HL table read at its address. -/
theorem packedFieldsReadInPlace : Obligations.PackedFieldsReadInPlace := by
  intro s
  rw [regRead_status, regRead_errinfo, regRead_pipeCar, regRead_saCar, regRead_rate, regRead_crc0, regRead_crc1]
  refine ⟨statusWord_fields _, errinfoWord_fields _, packCar_fields _, packCar_fields _, rateWord_fields _,
    crcWord_fields _, crcWord_fields _, fun dir i => ⟨fun h => ?tdra, fun h => ?apt, fun h => ?dmrs⟩⟩
  case tdra =>
    have hread := regRead_hl dir (by omega) (hlRegAt_tdra dir h) s
    exact hread ▸ tdra_fields _
  case apt =>
    have hread := regRead_hl dir (by omega) (hlRegAt_apt dir h) s
    exact hread ▸ apt_fields _
  case dmrs =>
    have hread := regRead_hl dir (by omega) (hlRegAt_dmrs dir h) s
    exact hread ▸ dmrs_fields _

end Sys2Proof.RegisterPort

/-! SUPPORT. Every register of the port keeps its own storage (R21, R69): the blocks of the address map, what a register
reads and writes, and the statements about written registers. -/

namespace Sys2Proof.RegisterStorage

open Sys2Proof.Machine Sys2Proof.Config Sys2Proof.Claims Sys2Proof.RegisterPort

/-! ## Blocks of registers -/

/-- The blocks of the address map; `fixed` holds every register that the host cannot write. -/
inductive Block where
  | fixed
  | carrier
  | coreset
  | dci
  | op
  | grant
  | tb
  | cfg
  | call
  | hl (dir : Bool)

/-- Two states with the same storage in a block. -/
def Agree : Block → State → State → Prop
  | .fixed, s, t => s.sys = t.sys ∧ s.res = t.res ∧ s.rx = t.rx ∧ s.pipe = t.pipe ∧ s.sa = t.sa
  | .carrier, s, t => s.args.car = t.args.car ∧ s.args.pa = t.args.pa
  | .coreset, s, t => s.args.cs = t.args.cs
  | .dci, s, t => s.args.dci = t.args.dci
  | .op, s, t => s.args.op = t.args.op
  | .grant, s, t => s.recs.gr = t.recs.gr
  | .tb, s, t => s.recs.tb0 = t.recs.tb0 ∧ s.recs.tb1 = t.recs.tb1
  | .cfg, s, t => s.recs.cfg = t.recs.cfg
  | .call, s, t => s.args.en = t.args.en ∧ s.args.pd = t.args.pd
  | .hl dir, s, t => hlBank dir s.args = hlBank dir t.args

/-- t is s but for the storage of a block. -/
def WritesOnly : Block → State → State → Prop
  | .fixed, s, t => t = s
  | .carrier, s, t => t = { s with args := { s.args with car := t.args.car, pa := t.args.pa } }
  | .coreset, s, t => t = { s with args := { s.args with cs := t.args.cs } }
  | .dci, s, t => t = { s with args := { s.args with dci := t.args.dci } }
  | .op, s, t => t = { s with args := { s.args with op := t.args.op } }
  | .grant, s, t => t = { s with recs := { s.recs with gr := t.recs.gr } }
  | .tb, s, t => t = { s with recs := { s.recs with tb0 := t.recs.tb0, tb1 := t.recs.tb1 } }
  | .cfg, s, t => t = { s with recs := { s.recs with cfg := t.recs.cfg } }
  | .call, s, t => t = { s with args := { s.args with en := t.args.en, pd := t.args.pd } }
  | .hl false, s, t => t = { s with args := { s.args with hl0 := t.args.hl0 } }
  | .hl true, s, t => t = { s with args := { s.args with hl1 := t.args.hl1 } }

/-- A write to one block leaves every other block as it was. -/
theorem agree_of_writesOnly {p q : Block} {s t : State} (hpq : p ≠ q) (h : WritesOnly p s t) : Agree q s t := by
  rcases p with _ | _ | _ | _ | _ | _ | _ | _ | _ | (_ | _)
  all_goals
    rw [h]
    rcases q with _ | _ | _ | _ | _ | _ | _ | _ | _ | (_ | _) <;> simp [Agree, hlBank] at hpq ⊢

/-- A write to one block changes argument registers and records only. -/
theorem args_recs_of_writesOnly {p : Block} {s t : State} (h : WritesOnly p s t) :
    t = { s with args := t.args, recs := t.recs } := by
  rcases p with _ | _ | _ | _ | _ | _ | _ | _ | _ | (_ | _) <;> (rw [h])

/-! ## One register -/

/-- A register that is read-only, or gives back what the host writes to it. -/
inductive Lawful : Reg → Prop where
  | readOnly {w : Nat} (get : State → BitVec w) : Lawful (roReg get)
  | argument {w : Nat} {get : ArgRegs → BitVec w} {set : BitVec w → ArgRegs → ArgRegs}
      (h : ∀ v r, get (set v r) = v) : Lawful (argReg get set)
  | record {w : Nat} {get : Records → BitVec w} {set : BitVec w → Records → Records}
      (h : ∀ v r, get (set v r) = v) : Lawful (recReg get set)

/-- What is true of the register r of a block: it reads and writes that block only, gives back what is written, and is 0
after reset. -/
structure Stored (p : Block) (r : Reg) : Prop where
  lawful : Lawful r
  cleared : r.get State.reset = 0
  reads : ∀ {s t}, Agree p s t → r.get s = r.get t
  writes : ∀ {f}, r.set = some f → ∀ v s, WritesOnly p s (f v s)

theorem Stored.readOnly {w : Nat} {get : State → BitVec w} (hz : get State.reset = 0)
    (hr : ∀ s t, Agree .fixed s t → get s = get t) : Stored .fixed (roReg get) :=
  ⟨.readOnly get, hz, hr _ _, nofun⟩

theorem Stored.argument {p : Block} {w : Nat} {get : ArgRegs → BitVec w} {set : BitVec w → ArgRegs → ArgRegs}
    (hv : ∀ v r, get (set v r) = v) (hz : get ArgRegs.zero = 0) (hr : ∀ s t, Agree p s t → get s.args = get t.args)
    (hw : ∀ v s, WritesOnly p s { s with args := set v s.args }) : Stored p (argReg get set) :=
  ⟨.argument hv, hz, hr _ _, fun hf v s => by cases hf; exact hw v s⟩

theorem Stored.record {p : Block} {w : Nat} {get : Records → BitVec w} {set : BitVec w → Records → Records}
    (hv : ∀ v r, get (set v r) = v) (hz : get Records.zero = 0) (hr : ∀ s t, Agree p s t → get s.recs = get t.recs)
    (hw : ∀ v s, WritesOnly p s { s with recs := set v s.recs }) : Stored p (recReg get set) :=
  ⟨.record hv, hz, hr _ _, fun hf v s => by cases hf; exact hw v s⟩

/-- A flag holds the bit written to its register. -/
@[simp] theorem ofBool_flagOf (v : BitVec 1) : BitVec.ofBool (flagOf v) = v := flag_roundtrip v

@[simp] theorem rowAt_replicate_zero {n k : Nat} (i : Nat) : rowAt (Vector.replicate n (0 : BitVec k)) i = 0 := by
  rw [rowAt, Vector.getElem?_replicate]
  split <;> rfl

theorem maskReg_stored {i : Nat} (h : i < 9) : Stored .grant (maskReg i) :=
  .record (by simp [h]) (rowAt_replicate_zero i) (by simp_all [Agree]) fun _ _ => rfl

theorem cfgRsvReg_stored {l : Nat} (h : l < 14) : Stored .cfg (cfgRsvReg l) :=
  .record (by simp [h]) (rowAt_replicate_zero l) (by simp_all [Agree]) fun _ _ => rfl

theorem pdMsgReg_stored {i : Nat} (h : i < 4) : Stored .call (pdMsgReg i) :=
  .argument (by simp [h]) (rowAt_replicate_zero i) (by simp_all [Agree]) fun _ _ => rfl

theorem hlReg_stored (dir : Bool) {w : Nat} {get : HlBank → BitVec w} {set : BitVec w → HlBank → HlBank}
    (hv : ∀ v b, get (set v b) = v) (hz : get HlBank.zero = 0) : Stored (.hl dir) (hlReg dir get set) := by
  cases dir
  · exact .argument (fun v _ => hv v _) hz (fun _ _ hst => congrArg get hst) fun _ _ => rfl
  · exact .argument (fun v _ => hv v _) hz (fun _ _ hst => congrArg get hst) fun _ _ => rfl

/-! ## The address map -/

/-- R31 to R36: the register at offset o of an HL bank. -/
inductive HlLocated (dir : Bool) : Nat → Reg → Prop where
  | mcsTable : HlLocated dir 0x00 (hlReg dir (fun b => b.mcsTable) fun v b => { b with mcsTable := v })
  | allocType : HlLocated dir 0x01 (hlReg dir (fun b => b.allocType) fun v b => { b with allocType := v })
  | ssAssoc : HlLocated dir 0x02 (hlReg dir (fun b => b.ssAssoc) fun v b => { b with ssAssoc := v })
  | tdra {o i : Nat} (h : i < 16) (ho : o = 0x10 + i) : HlLocated dir o (tdraReg dir i)
  | apt {o i : Nat} (h : i < 32) (ho : o = 0x20 + i) : HlLocated dir o (aptReg dir i)
  | dmrs {o i : Nat} (h : i < 4) (ho : o = 0x40 + i) : HlLocated dir o (dmrsReg dir i)
  | rsv {o i : Nat} (h : i < 14) (ho : o = 0x50 + i) : HlLocated dir o (rsvReg dir i)

theorem hlLocated_of_hlRegAt {dir : Bool} {o : Nat} {r : Reg} (h : hlRegAt dir o = some r) : HlLocated dir o r := by
  unfold hlRegAt at h
  split_ifs at h with h0 h1 h2 h3 h4 h5 h6 <;> cases h
  case pos => exact h0 ▸ .mcsTable
  case pos => exact h1 ▸ .allocType
  case pos => exact h2 ▸ .ssAssoc
  case pos => exact .tdra (i := o - 0x10) (by omega) (by omega)
  case pos => exact .apt (i := o - 0x20) (by omega) (by omega)
  case pos => exact .dmrs (i := o - 0x40) (by omega) (by omega)
  case pos => exact .rsv (i := o - 0x50) (by omega) (by omega)

theorem HlLocated.stored {dir : Bool} {o : Nat} {r : Reg} (h : HlLocated dir o r) : Stored (.hl dir) r := by
  cases h with
  | mcsTable => exact hlReg_stored dir (fun _ _ => rfl) rfl
  | allocType => exact hlReg_stored dir (fun _ _ => rfl) rfl
  | ssAssoc => exact hlReg_stored dir (fun _ _ => rfl) rfl
  | tdra h _ => exact hlReg_stored dir (fun v b => rowAt_set_same b.tdra v h) (rowAt_replicate_zero _)
  | apt h _ => exact hlReg_stored dir (fun v b => rowAt_set_same b.apt v h) (rowAt_replicate_zero _)
  | dmrs h _ => exact hlReg_stored dir (fun v b => rowAt_set_same b.dmrs v h) (rowAt_replicate_zero _)
  | rsv h _ => exact hlReg_stored dir (fun v b => rowAt_set_same b.rsv v h) (rowAt_replicate_zero _)

/-- R69: the register r stands at address a, in a block. -/
inductive Located : Block → Nat → Reg → Prop where
  | system {a : Nat} {r : Reg} (h : systemReg a = some r) : Located .fixed a r
  | unit {a : Nat} {r : Reg} (h : unitReg a = some r) : Located .fixed a r
  | res {a : Nat} {r : Reg} (h : resReg a = some r) : Located .fixed a r
  | rx {a : Nat} {r : Reg} (h : rxReg a = some r) : Located .fixed a r
  | carrier {a : Nat} {r : Reg} (h : carrierReg a = some r) : Located .carrier a r
  | coreset {a : Nat} {r : Reg} (h : coresetReg a = some r) : Located .coreset a r
  | dci {a : Nat} {r : Reg} (h : dciReg a = some r) : Located .dci a r
  | op {a : Nat} {r : Reg} (h : opReg a = some r) : Located .op a r
  | grant {a : Nat} {r : Reg} (h : grantReg a = some r) : Located .grant a r
  | mask {a i : Nat} (h : i < 9) (ha : a = 0x070 + i) : Located .grant a (maskReg i)
  | tb {a : Nat} {r : Reg} (h : tbReg a = some r) : Located .tb a r
  | cfg {a : Nat} {r : Reg} (h : cfgReg a = some r) : Located .cfg a r
  | cfgRsv {a i : Nat} (h : i < 14) (ha : a = 0x0A4 + i) : Located .cfg a (cfgRsvReg i)
  | call {a : Nat} {r : Reg} (h : callReg a = some r) : Located .call a r
  | pdMsg {a i : Nat} (h : i < 4) (ha : a = 0x0CC + i) : Located .call a (pdMsgReg i)
  | hl (dir : Bool) {a o : Nat} {r : Reg} (h : HlLocated dir o r) (ha : a = hlBase dir + o) : Located (.hl dir) a r

/-- Every register of the map stands in a block. -/
theorem located_of_regAt {a : Nat} {r : Reg} (h : regAt a = some r) : ∃ p, Located p a r := by
  unfold regAt at h
  obtain ⟨_, h⟩ | ⟨_, h⟩ := ite_eq_iff.mp h
  · exact ⟨_, .system h⟩
  obtain ⟨_, h⟩ | ⟨_, h⟩ := ite_eq_iff.mp h
  · exact ⟨_, .carrier h⟩
  obtain ⟨_, h⟩ | ⟨_, h⟩ := ite_eq_iff.mp h
  · exact ⟨_, .unit h⟩
  obtain ⟨_, h⟩ | ⟨_, h⟩ := ite_eq_iff.mp h
  · exact ⟨_, .coreset h⟩
  obtain ⟨_, h⟩ | ⟨_, h⟩ := ite_eq_iff.mp h
  · exact ⟨_, .dci h⟩
  obtain ⟨_, h⟩ | ⟨_, h⟩ := ite_eq_iff.mp h
  · exact ⟨_, .op h⟩
  obtain ⟨_, h⟩ | ⟨_, h⟩ := ite_eq_iff.mp h
  · exact ⟨_, .res h⟩
  obtain ⟨_, h⟩ | ⟨_, h⟩ := ite_eq_iff.mp h
  · exact ⟨_, .grant h⟩
  obtain ⟨_, h⟩ | ⟨_, h⟩ := ite_eq_iff.mp h
  · cases h; exact ⟨_, .mask (i := a - 0x070) (by omega) (by omega)⟩
  obtain ⟨_, h⟩ | ⟨_, h⟩ := ite_eq_iff.mp h
  · exact ⟨_, .tb h⟩
  obtain ⟨_, h⟩ | ⟨_, h⟩ := ite_eq_iff.mp h
  · exact ⟨_, .cfg h⟩
  obtain ⟨_, h⟩ | ⟨_, h⟩ := ite_eq_iff.mp h
  · cases h; exact ⟨_, .cfgRsv (i := a - 0x0A4) (by omega) (by omega)⟩
  obtain ⟨_, h⟩ | ⟨_, h⟩ := ite_eq_iff.mp h
  · exact ⟨_, .call h⟩
  obtain ⟨_, h⟩ | ⟨_, h⟩ := ite_eq_iff.mp h
  · cases h; exact ⟨_, .pdMsg (i := a - 0x0CC) (by omega) (by omega)⟩
  obtain ⟨_, h⟩ | ⟨_, h⟩ := ite_eq_iff.mp h
  · exact ⟨_, .rx h⟩
  obtain ⟨_, h⟩ | ⟨_, h⟩ := ite_eq_iff.mp h
  · exact ⟨_, .hl false (hlLocated_of_hlRegAt h) (by change a = 0x100 + (a - 0x100); omega)⟩
  · exact ⟨_, .hl true (hlLocated_of_hlRegAt h) (by change a = 0x180 + (a - 0x180); omega)⟩

/-- Every register of a block is stored in the block: its group's fields one by one. -/
theorem Located.stored {p : Block} {a : Nat} {r : Reg} (h : Located p a r) : Stored p r := by
  cases h with
  | mask h _ => exact maskReg_stored h
  | cfgRsv h _ => exact cfgRsvReg_stored h
  | pdMsg h _ => exact pdMsgReg_stored h
  | hl dir h _ => exact h.stored
  | system h | unit h | res h | rx h =>
    delta systemReg unitReg resReg rxReg at h
    split at h <;> cases h
    all_goals exact .readOnly rfl fun s t hst => by simp_all [Agree]
  | carrier h | coreset h | dci h | op h | call h =>
    delta carrierReg coresetReg dciReg opReg callReg at h
    split at h <;> cases h
    all_goals exact .argument (by simp) rfl (by simp_all [Agree]) fun _ _ => rfl
  | grant h | tb h | cfg h =>
    delta grantReg tbReg cfgReg at h
    split at h <;> cases h
    all_goals exact .record (by simp) rfl (by simp_all [Agree]) fun _ _ => rfl

theorem stored_of_regAt {a : Nat} {r : Reg} (h : regAt a = some r) : ∃ p, Stored p r := by
  obtain ⟨p, hp⟩ := located_of_regAt h
  exact ⟨p, hp.stored⟩

/-! ## Reset (R68) -/

@[simp] theorem bankRead_undefined {α : Type} {n : Nat} (a addr : Nat) :
    bankRead (Vector.replicate n ([] : Mem α)) a addr = none := by
  rw [bankRead, Vector.getElem?_replicate]
  split <;> rfl

theorem regRead_reset (a : BitVec 9) : regRead a State.reset = 0 := by
  cases h : regAt a.toNat with
  | none => exact regRead_unmapped h _
  | some r =>
    obtain ⟨p, hp⟩ := stored_of_regAt h
    rw [regRead_of_regAt h, hp.cleared]
    exact BitVec.setWidth_zero ..

/-- Settles O1: every register of the map is cleared, and every memory is a table of empty spaces. -/
theorem resetClearsRegistersAndMemories : Obligations.ResetClearsRegistersAndMemories := by
  refine ⟨regRead_reset, rfl, rfl, fun a addr => ⟨bankRead_undefined _ _, bankRead_undefined _ _⟩, fun c i => ?_,
    fun _ => rfl⟩
  constructor <;> exact congrArg (memRead · i) (Vector.getElem_replicate c.isLt)

/-! ## A written register (R21) -/

/-- A write of an address stores into its register, if that is writable. -/
theorem regStore_of_set {a : BitVec 9} {r : Reg} {f : BitVec r.width → State → State} (h : regAt a.toNat = some r)
    (hf : r.set = some f) (v : Word) (s : State) : regStore a v s = f (v.setWidth r.width) s := by
  simp [regStore, h, hf]

theorem regStore_readOnly {a : BitVec 9} {r : Reg} (h : regAt a.toNat = some r) (hf : r.set = none) (v : Word)
    (s : State) : regStore a v s = s := by simp [regStore, h, hf]

theorem regStore_unmapped {a : BitVec 9} (h : regAt a.toNat = none) (v : Word) (s : State) : regStore a v s = s := by
  simp [regStore, h]

/-- A write of an address either changes nothing or makes the write of its register. -/
theorem regStore_cases (a : BitVec 9) (v : Word) (s : State) :
    regStore a v s = s ∨
      ∃ r f, regAt a.toNat = some r ∧ r.set = some f ∧ regStore a v s = f (v.setWidth r.width) s := by
  cases h : regAt a.toNat with
  | none => exact .inl (regStore_unmapped h v s)
  | some r =>
    cases hf : r.set with
    | none => exact .inl (regStore_readOnly h hf v s)
    | some f => exact .inr ⟨r, f, rfl, hf, regStore_of_set h hf v s⟩

/-- R28, R29, R31: a write changes argument registers and records only. -/
theorem regStore_args_recs (a : BitVec 9) (v : Word) (s : State) :
    regStore a v s = { s with args := (regStore a v s).args, recs := (regStore a v s).recs } := by
  obtain h | ⟨r, f, hr, hf, h⟩ := regStore_cases a v s
  · rw [h]
  · obtain ⟨p, hp⟩ := stored_of_regAt hr
    rw [h]
    exact args_recs_of_writesOnly (hp.writes hf _ s)

/-- A lawful register gives back what is written to it. -/
theorem Lawful.get_set {r : Reg} (h : Lawful r) {f : BitVec r.width → State → State} (hf : r.set = some f)
    (v : BitVec r.width) (s : State) : r.get (f v s) = v := by
  cases h with
  | readOnly get => cases hf
  | argument h => cases hf; exact h v s.args
  | record h => cases hf; exact h v s.recs

/-- R21: a written register reads back the bits that exist. -/
theorem regRead_regStore_same {a : BitVec 9} {r : Reg} (h : regAt a.toNat = some r) (hset : r.set.isSome) (v : Word)
    (s : State) : regRead a (regStore a v s) = (v.setWidth r.width).setWidth 32 := by
  obtain ⟨f, hf⟩ := Option.isSome_iff_exists.mp hset
  obtain ⟨p, hp⟩ := stored_of_regAt h
  rw [regStore_of_set h hf, regRead_of_regAt h, hp.lawful.get_set hf]

/-- A read shows no bit beyond the width of the register. -/
theorem regRead_lt {a : BitVec 9} {r : Reg} (h : regAt a.toNat = some r) (s : State) :
    (regRead a s).toNat < 2 ^ r.width := by
  rw [regRead_of_regAt h, BitVec.toNat_setWidth]
  exact (Nat.mod_le ..).trans_lt (r.get s).isLt

/-! ## The table of all registers -/

/-- What the address map says of a row (address, width, writable) of the table. STATUS and ERRINFO are held as whole words
and are narrower than their register. -/
structure RowHeld (row : Nat × Nat × Bool) : Prop where
  addr_lt : row.1 < 512
  held : ∃ r, regAt row.1 = some r ∧ r.set.isSome = row.2.2 ∧
    (r.width = row.2.1 ∨ row = (0x001, 16, false) ∨ row = (0x002, 12, false))

/-- A row of the table is held by a register of its width. -/
theorem rowHeld_of_regAt {a : Nat} {r : Reg} (h : regAt a = some r) (ha : a < 512) : RowHeld (a, r.width, r.set.isSome) :=
  ⟨ha, r, h, rfl, .inl rfl⟩

/-- Every row of a list is held. -/
def RowsHeld (rows : List (Nat × Nat × Bool)) : Prop := ∀ row ∈ rows, RowHeld row

theorem RowsHeld.append {rows rows' : List (Nat × Nat × Bool)} (h : RowsHeld rows) (h' : RowsHeld rows') :
    RowsHeld (rows ++ rows') := List.forall_mem_append.mpr ⟨h, h'⟩

theorem RowsHeld.nil : RowsHeld [] := nofun

theorem RowsHeld.cons {row : Nat × Nat × Bool} {rows : List (Nat × Nat × Bool)} (h : RowHeld row) (h' : RowsHeld rows) :
    RowsHeld (row :: rows) := List.forall_mem_cons.mpr ⟨h, h'⟩

/-- The rows of a table of registers. -/
theorem rowsHeld_range {n : Nat} {f : Nat → Nat × Nat × Bool} (h : ∀ i < n, RowHeld (f i)) :
    RowsHeld ((List.range n).map f) := List.forall_mem_map.mpr fun i hi => h i (List.mem_range.mp hi)

theorem rowHeld_hl (dir : Bool) {o : Nat} {r : Reg} (h : hlRegAt dir o = some r) (ho : o < 0x80) :
    RowHeld (hlBase dir + o, r.width, r.set.isSome) :=
  rowHeld_of_regAt ((regAt_hl dir ho).trans h) (by have := hlBase_le dir; omega)

/-- R31 to R36: every row of an HL bank's table is held. -/
theorem hlTable_held (dir : Bool) : RowsHeld (hlTable (hlBase dir)) := by
  simp only [hlTable, Nat.add_assoc]
  refine .append (.append (.append (.append ?scalars ?tdra) ?apt) ?dmrs) ?rsv
  case scalars =>
    exact .cons (rowHeld_hl dir (o := 0x00) rfl (by decide)) (.cons (rowHeld_hl dir (o := 0x01) rfl (by decide))
      (.cons (rowHeld_hl dir (o := 0x02) rfl (by decide)) .nil))
  case tdra => exact rowsHeld_range fun i h => rowHeld_hl dir (hlRegAt_tdra dir h) (by omega)
  case apt => exact rowsHeld_range fun i h => rowHeld_hl dir (hlRegAt_apt dir h) (by omega)
  case dmrs => exact rowsHeld_range fun i h => rowHeld_hl dir (hlRegAt_dmrs dir h) (by omega)
  case rsv => exact rowsHeld_range fun i h => rowHeld_hl dir (hlRegAt_rsv dir h) (by omega)

/-- R22 to R49, R69: every row of the table is held by the address map. -/
theorem portTable_held : RowsHeld portTable := by
  unfold portTable
  refine .append (.append (.append (.append (.append (.append (.append (.append (.append (.append (.append (.append (.append
    (.append (.append (.append ?system ?carrier) ?units) ?coreset) ?dci) ?op) ?res) ?grant) ?mask) ?tb) ?cfg) ?cfgRsv)
    ?call) ?pdMsg) ?rx) (hlTable_held false)) (hlTable_held true)
  case mask => exact rowsHeld_range fun i h => rowHeld_of_regAt (regAt_mask h) (by omega)
  case cfgRsv => exact rowsHeld_range fun i h => rowHeld_of_regAt (regAt_cfgRsv h) (by omega)
  case pdMsg => exact rowsHeld_range fun i h => rowHeld_of_regAt (regAt_pdMsg h) (by omega)
  case system =>
    exact .cons ⟨by decide, _, rfl, rfl, .inl rfl⟩ (.cons ⟨by decide, _, rfl, rfl, .inr (.inl rfl)⟩
      (.cons ⟨by decide, _, rfl, rfl, .inr (.inr rfl)⟩ (.cons ⟨by decide, _, rfl, rfl, .inl rfl⟩ .nil)))
  all_goals
    repeat refine .cons ⟨by decide, _, rfl, rfl, .inl rfl⟩ ?_
    exact .nil

/-- R33 to R36: every register of an HL bank has its row in the bank's table. -/
theorem HlLocated.listed {dir : Bool} {o : Nat} {r : Reg} (h : HlLocated dir o r) (base : Nat) :
    ∃ row ∈ hlTable base, row.1 = base + o := by
  simp only [hlTable, List.mem_append, List.mem_map, List.mem_range, List.mem_cons, List.not_mem_nil, or_false]
  cases h with
  | mcsTable => exact ⟨(base, 2, true), by simp, rfl⟩
  | allocType => exact ⟨(base + 0x01, 2, true), by simp, rfl⟩
  | ssAssoc => exact ⟨(base + 0x02, 16, true), by simp, rfl⟩
  | @tdra _ i h ho => exact ⟨(base + 0x10 + i, 10, true), .inl (.inl (.inl (.inr ⟨i, h, rfl⟩))), by simp only; omega⟩
  | @apt _ i h ho => exact ⟨(base + 0x20 + i, 15, true), .inl (.inl (.inr ⟨i, h, rfl⟩)), by simp only; omega⟩
  | @dmrs _ i h ho => exact ⟨(base + 0x40 + i, 16, true), .inl (.inr ⟨i, h, rfl⟩), by simp only; omega⟩
  | @rsv _ i h ho => exact ⟨(base + 0x50 + i, 12, true), .inr ⟨i, h, rfl⟩, by simp only; omega⟩

/-- An address of a sublist of the table is one of the table. -/
theorem listed_of_subset {rows : List (Nat × Nat × Bool)} (hsub : rows ⊆ portTable) {row : Nat × Nat × Bool} {a : Nat}
    (hrow : row ∈ rows) (ha : a = row.1) : a ∈ portTable.map Prod.fst :=
  ha ▸ List.mem_map_of_mem (hsub hrow)

theorem hlTable_subset (dir : Bool) : hlTable (hlBase dir) ⊆ portTable := fun _ h =>
  match dir with
  | false => List.mem_append_left _ (List.mem_append_right _ h)
  | true => List.mem_append_right _ h

theorem maskRows_subset : (List.range 9).map (fun i => (0x070 + i, 32, true)) ⊆ portTable := fun _ h => by
  iterate 8 apply List.mem_append_left
  exact List.mem_append_right _ h

theorem cfgRsvRows_subset : (List.range 14).map (fun i => (0x0A4 + i, 12, true)) ⊆ portTable := fun _ h => by
  iterate 5 apply List.mem_append_left
  exact List.mem_append_right _ h

theorem pdMsgRows_subset : (List.range 4).map (fun i => (0x0CC + i, 32, true)) ⊆ portTable := fun _ h => by
  iterate 3 apply List.mem_append_left
  exact List.mem_append_right _ h

/-- Every register of the map has its row in the table. -/
theorem Located.listed {p : Block} {a : Nat} {r : Reg} (h : Located p a r) : a ∈ portTable.map Prod.fst := by
  cases h with
  | mask h ha => exact listed_of_subset maskRows_subset (List.mem_map_of_mem (List.mem_range.mpr h)) ha
  | cfgRsv h ha => exact listed_of_subset cfgRsvRows_subset (List.mem_map_of_mem (List.mem_range.mpr h)) ha
  | pdMsg h ha => exact listed_of_subset pdMsgRows_subset (List.mem_map_of_mem (List.mem_range.mpr h)) ha
  | hl dir h ha =>
    obtain ⟨row, hrow, hr⟩ := h.listed (hlBase dir)
    exact listed_of_subset (hlTable_subset dir) hrow (ha.trans hr.symm)
  | system h | unit h | res h | rx h | carrier h | coreset h | dci h | op h | grant h | tb h | cfg h | call h =>
    delta systemReg unitReg resReg rxReg carrierReg coresetReg dciReg opReg grantReg tbReg cfgReg callReg at h
    split at h <;> cases h <;> decide

/-- U9: an address in no row is unmapped. -/
theorem regAt_eq_none {a : Nat} (h : a ∉ portTable.map Prod.fst) : regAt a = none := by
  cases hr : regAt a with
  | none => rfl
  | some r =>
    obtain ⟨p, hp⟩ := located_of_regAt hr
    exact absurd hp.listed h

/-! ## Reads of the table -/

/-- Zeros above the low n bits. -/
theorem toNat_zero_append_lt {n : Nat} (m : Nat) (x : BitVec n) : (0#m ++ x).toNat < 2 ^ n := by
  rw [BitVec.toNat_append, BitVec.toNat_ofNat, Nat.zero_mod, Nat.zero_shiftLeft, Nat.zero_or]
  exact x.isLt

theorem statusWord_lt (y : SystemRegs) : (statusWord y).toNat < 2 ^ 16 := toNat_zero_append_lt 16 _

theorem errinfoWord_lt (y : SystemRegs) : (errinfoWord y).toNat < 2 ^ 12 := toNat_zero_append_lt 20 _

/-- A read of a row's address shows no bit beyond the row's width. -/
theorem regRead_row_lt {row : Nat × Nat × Bool} (h : RowHeld row) (s : State) :
    (regRead (BitVec.ofNat 9 row.1) s).toNat < 2 ^ row.2.1 := by
  obtain ⟨hlt, r, hr, -, hw | rfl | rfl⟩ := h
  · rw [← hw]
    exact regRead_lt (by rwa [BitVec.toNat_ofNat, Nat.mod_eq_of_lt hlt]) s
  · exact (regRead_status s).symm ▸ statusWord_lt s.sys
  · exact (regRead_errinfo s).symm ▸ errinfoWord_lt s.sys

/-- A write of a row's address reads back in its width, or is ignored. -/
theorem regStore_row {row : Nat × Nat × Bool} (h : RowHeld row) (v : Word) (s : State) :
    if row.2.2 then
      regRead (BitVec.ofNat 9 row.1) (regStore (BitVec.ofNat 9 row.1) v s) = (v.setWidth row.2.1).setWidth 32
    else regStore (BitVec.ofNat 9 row.1) v s = s := by
  obtain ⟨hlt, r, hr, hset, hw⟩ := h
  have hreg : regAt (BitVec.ofNat 9 row.1).toNat = some r := by rwa [BitVec.toNat_ofNat, Nat.mod_eq_of_lt hlt]
  split
  case isTrue hrow =>
    obtain hw | rfl | rfl := hw
    · rw [regRead_regStore_same hreg (hset.trans hrow), hw]
    · cases hrow
    · cases hrow
  case isFalse hrow =>
    exact regStore_readOnly hreg (Option.not_isSome_iff_eq_none.mp (by rwa [hset])) v s

/-- Settles O12: the table's rows by `RowHeld`, other addresses as unmapped, and the frame by the blocks. -/
theorem writtenRegisterReadsBack : Obligations.WrittenRegisterReadsBack := by
  refine ⟨fun a v s hb => ⟨?read, fun ha => ?write⟩, fun row hrow v s => ?rows, fun a v s ha => ?unmapped,
    regStore_args_recs⟩
  case read => simp [hostAccess_next, hb, idleAccess, deliver]
  case write => rw [hostAccess_next, hb, if_neg Bool.false_ne_true, idleAccess, hostWrite, if_neg ha]
  case rows => exact ⟨regRead_row_lt (portTable_held row hrow) s, regStore_row (portTable_held row hrow) v s⟩
  case unmapped =>
    have hnone := regAt_eq_none ha
    exact ⟨regStore_unmapped hnone v s, regRead_unmapped hnone s⟩

end Sys2Proof.RegisterStorage

/-! SUPPORT. No two addresses of the register port share storage (R21, R69). -/

namespace Sys2Proof.RegisterSeparation

open Sys2Proof.Machine Sys2Proof.Config Sys2Proof.Claims Sys2Proof.RegisterPort Sys2Proof.RegisterStorage

/-- The host's write of r does not show in q. -/
def Untouched (q r : Reg) : Prop := ∀ f, r.set = some f → ∀ v s, q.get (f v s) = q.get s

/-- Registers of different blocks are apart. -/
theorem untouched_of_blocks {p p' : Block} {q r : Reg} (hr : Stored p r) (hq : Stored p' q) (hp : p ≠ p') :
    Untouched q r := fun _ hf v s => (hq.reads (agree_of_writesOnly hp (hr.writes hf v s))).symm

/-- A register that the host cannot write is apart from every register. -/
theorem untouched_of_fixed {q r : Reg} (hr : Stored .fixed r) : Untouched q r := fun _ hf v s =>
  congrArg q.get (hr.writes hf v s)

/-! ## Tables -/

theorem maskReg_apart {i j : Nat} (hij : i ≠ j) : Untouched (maskReg j) (maskReg i) := fun _ hf v s => by
  cases hf
  exact rowAt_set_ne s.recs.gr.prbMask v hij

theorem cfgRsvReg_apart {i j : Nat} (hij : i ≠ j) : Untouched (cfgRsvReg j) (cfgRsvReg i) := fun _ hf v s => by
  cases hf
  exact rowAt_set_ne s.recs.cfg.rsv v hij

theorem pdMsgReg_apart {i j : Nat} (hij : i ≠ j) : Untouched (pdMsgReg j) (pdMsgReg i) := fun _ hf v s => by
  cases hf
  exact rowAt_set_ne s.args.pd.msg v hij

/-- Two registers of one HL bank are apart when the write of the one leaves what the other reads of the bank. -/
theorem hlReg_apart (dir : Bool) {w w' : Nat} {get : HlBank → BitVec w} {set : BitVec w → HlBank → HlBank}
    {get' : HlBank → BitVec w'} {set' : BitVec w' → HlBank → HlBank} (h : ∀ v b, get (set' v b) = get b) :
    Untouched (hlReg dir get set) (hlReg dir get' set') := fun _ hf v s => by
  cases hf
  cases dir
  · exact h v s.args.hl0
  · exact h v s.args.hl1

theorem hlLocated_apart {dir : Bool} {o o' : Nat} {r q : Reg} (hr : HlLocated dir o r) (hq : HlLocated dir o' q)
    (ho : o ≠ o') : Untouched q r := by
  cases hr <;> cases hq
  case tdra.tdra i _ hi j _ hj => exact hlReg_apart dir fun v b => rowAt_set_ne b.tdra v (by omega)
  case apt.apt i _ hi j _ hj => exact hlReg_apart dir fun v b => rowAt_set_ne b.apt v (by omega)
  case dmrs.dmrs i _ hi j _ hj => exact hlReg_apart dir fun v b => rowAt_set_ne b.dmrs v (by omega)
  case rsv.rsv i _ hi j _ hj => exact hlReg_apart dir fun v b => rowAt_set_ne b.rsv v (by omega)
  all_goals first | exact absurd rfl ho | exact hlReg_apart dir (by intros; rfl)

/-! ## All registers -/

/-- Two registers of one block at different addresses are apart: at two addresses of a group stand two fields, and the group's
table, where it has one, is a field of its own. -/
theorem apart_in_block {p : Block} {a b : Nat} {r q : Reg} (hr : Located p a r) (hq : Located p b q) (hab : a ≠ b) :
    Untouched q r := by
  by_cases hfixed : p = .fixed
  · exact untouched_of_fixed (hfixed ▸ hr.stored)
  cases hr <;> cases hq
  case hl.hl _ h _ _ h' => exact hlLocated_apart h h' (by omega)
  case mask.mask => exact maskReg_apart (by omega)
  case cfgRsv.cfgRsv => exact cfgRsvReg_apart (by omega)
  case pdMsg.pdMsg => exact pdMsgReg_apart (by omega)
  case grant.mask h _ _ _ | mask.grant _ _ _ h | cfg.cfgRsv h _ _ _ | cfgRsv.cfg _ _ _ h | call.pdMsg h _ _ _ |
      pdMsg.call _ _ _ h =>
    delta grantReg cfgReg callReg at h
    split at h <;> cases h
    all_goals exact fun _ hf _ _ => by cases hf; rfl
  case carrier.carrier h h' | coreset.coreset h h' | dci.dci h h' | op.op h h' | grant.grant h h' | tb.tb h h' |
      cfg.cfg h h' | call.call h h' =>
    delta carrierReg coresetReg dciReg opReg grantReg tbReg cfgReg callReg at h h'
    split at h <;> cases h <;> split at h' <;> cases h'
    all_goals first | exact absurd rfl hab | exact fun _ hf _ _ => by cases hf; rfl
  all_goals exact absurd rfl hfixed

/-- R69: two registers of the map at different addresses are apart. -/
theorem regAt_apart {a b : Nat} {r q : Reg} (ha : regAt a = some r) (hb : regAt b = some q) (hab : a ≠ b) :
    Untouched q r := by
  obtain ⟨p, hr⟩ := located_of_regAt ha
  obtain ⟨p', hq⟩ := located_of_regAt hb
  by_cases hp : p = p'
  · exact apart_in_block hr (hp ▸ hq) hab
  · exact untouched_of_blocks hr.stored hq.stored hp

/-- R21: a write of one address leaves what another reads. -/
theorem regRead_regStore_other {a b : BitVec 9} (hab : a ≠ b) (v : Word) (s : State) :
    regRead b (regStore a v s) = regRead b s := by
  obtain h | ⟨r, f, hr, hf, h⟩ := regStore_cases a v s
  · rw [h]
  · rw [h]
    cases hb : regAt b.toNat with
    | none => rw [regRead_unmapped hb, regRead_unmapped hb]
    | some q =>
      have hapart : Untouched q r := regAt_apart hr hb fun e => hab (BitVec.eq_of_toNat_eq e)
      rw [regRead_of_regAt hb, regRead_of_regAt hb, hapart f hf]

/-- Settles O13: registers at different addresses are apart, and an idle host write is the store. -/
theorem writeLeavesOtherRegisters : Obligations.WriteLeavesOtherRegisters := fun a _ v s hab =>
  ⟨regRead_regStore_other hab v s, fun ha hb =>
    ⟨regStore a v s, (writtenRegisterReadsBack.1 a v s hb).2 ha, regRead_regStore_other hab v s⟩⟩

end Sys2Proof.RegisterSeparation

/-! SUPPORT. One step by cases: whose turn it is, and the state it leads to (R15, R318, R350, R366, log 7). Every statement
about a step is a case analysis over `StepCase`. -/

namespace Sys2Proof.StepCases

open Sys2Proof.Machine Sys2Proof.Config Sys2Proof.Claims Sys2Proof.CommandEnds

/-! ## The word of a decoded command (R100, R104) -/

theorem wordOf_fieldsOf (w : Word) : wordOf (fieldsOf w) = w := by
  refine BitVec.eq_of_getLsbD_eq fun i hi => ?_
  simp only [wordOf, fieldsOf, BitVec.getLsbD_append, BitVec.getLsbD_extractLsb']
  by_cases hopc : i < 8
  · have : ¬ 9 ≤ i := by omega
    simp [hopc, this]
  · by_cases hmod : i < 9
    · obtain rfl : i = 8 := by omega
      simp
    · have hzero : i - 9 < 23 := by omega
      have hpos : 9 + (i - 9) = i := by omega
      simp [hmod, hzero, hpos]

/-- A row of the command table is selected by its own opcode and modifier. -/
theorem fields_of_rowOf {opc m : Nat} {i : Instr} (h : rowOf opc m = .ok i) :
    opc = (encodeFields i).opc.toNat ∧ m = (encodeFields i).m.toNat := by
  unfold rowOf at h
  split at h
  case h_21 => split at h <;> cases h
  all_goals cases h; exact ⟨rfl, rfl⟩

theorem encodeFields_zero (i : Instr) : (encodeFields i).zero = 0 := by cases i <;> rfl

/-- R104: a word that decodes to a command is that command's word. -/
theorem eq_encode_of_decode {w : Word} {i : Instr} (h : decode w = .ok i) : w = encode i := by
  simp only [Sys2Proof.decode] at h
  split at h
  case isFalse => cases h
  case isTrue hz =>
    obtain ⟨hopc, hm⟩ := fields_of_rowOf h
    have hf : fieldsOf w = encodeFields i := by
      rw [CommandWord.mk.injEq]
      exact ⟨BitVec.eq_of_toNat_eq hopc, BitVec.eq_of_toNat_eq hm, hz.trans (encodeFields_zero i).symm⟩
    rw [encode, ← hf, wordOf_fieldsOf]

/-! ## Whose turn it is -/

theorem turnGone_of_nil {s : State} (h : s.env.schedule = []) : turnGone s = s := by
  obtain ⟨_, _, _, _, _, _, _, _, ⟨sched, _, _, _, _, _⟩⟩ := s
  cases h
  rfl

/-- The scheduled agent moves, its turn taken. -/
theorem step_of_head {s : State} {turn : Turn} (h : s.env.schedule.head? = some turn) :
    step s = runTurn turn (turnGone s) := by
  obtain ⟨rest, hs⟩ := List.head?_eq_some_iff.mp h
  rw [step_cons s turn rest hs]
  simp [turnGone, turnTaken, hs]

/-- The executor moves when it is named and when nothing is scheduled (log 7). -/
theorem step_eq_executorTurn {s : State} (hx : ExecutorNext s) : step s = executorTurn (turnGone s) := by
  obtain hhead | hnil := hx
  · exact step_of_head hhead
  · rw [step_nil s hnil, turnGone_of_nil hnil]

/-- A step leads from `s` to the state named. -/
inductive StepCase (s : State) : State → Prop where
  /-- R350: reset is asserted. -/
  | reset (hturn : s.env.schedule.head? = some .reset) : StepCase s (hardReset (turnGone s))
  /-- The executor has nothing in flight. -/
  | idle (hx : ExecutorNext s) (hb : s.sys.busy = false) : StepCase s (turnGone s)
  /-- R318: the executor runs the command whose word is in CMD. -/
  | command {i : Instr} {t : State} (hx : ExecutorNext s) (hb : s.sys.busy = true) (hi : s.sys.cmd = encode i)
      (ht : exec i (turnGone s) = .next t) : StepCase s t
  /-- R102: the executor meets a reserved word. -/
  | reserved (hx : ExecutorNext s) (hb : s.sys.busy = true) :
      StepCase s (finishState (.raised { code := .iiCmdReserved, step := 0 } (turnGone s)))
  /-- R366: the host meets a command in flight. -/
  | busyHost {x : HostAccess} (hturn : s.env.schedule.head? = some (.host x)) (hb : s.sys.busy = true) :
      StepCase s (busyAccess x (turnGone s))
  /-- R21, R75: the host meets an idle block. -/
  | idleHost {x : HostAccess} (hturn : s.env.schedule.head? = some (.host x)) (hb : s.sys.busy = false) :
      StepCase s (idleAccess x (turnGone s))

theorem stepCase_of_executorNext {s t : State} (hx : ExecutorNext s) (h : step s = .next t) : StepCase s t := by
  rw [step_eq_executorTurn hx, executorTurn] at h
  split at h
  case isFalse hb => cases h; exact .idle hx (Bool.eq_false_of_not_eq_true hb)
  case isTrue hb =>
    split at h
    next i hi => exact .command hx hb (eq_encode_of_decode hi) h
    next => cases h; exact .reserved hx hb

/-- Every step is one of the six cases. -/
theorem step_cases {s t : State} (h : step s = .next t) : StepCase s t := by
  cases hs : s.env.schedule.head? with
  | none => exact stepCase_of_executorNext (.inr (List.head?_eq_none_iff.mp hs)) h
  | some turn =>
    cases turn with
    | executor => exact stepCase_of_executorNext (.inl hs) h
    | reset => rw [step_of_head hs] at h; cases h; exact .reset hs
    | host x =>
      rw [step_of_head hs, runTurn, hostAccess_next] at h
      cases h
      split
      · exact .busyHost hs ‹_›
      · exact .idleHost hs (Bool.eq_false_of_not_eq_true ‹_›)

theorem not_reset_of_executorNext {s : State} (hx : ExecutorNext s) : s.env.schedule.head? ≠ some .reset := by
  obtain h | h := hx <;> simp [h]

theorem not_executorNext_of_host {s : State} {x : HostAccess} (h : s.env.schedule.head? = some (.host x)) :
    ¬ ExecutorNext s := by
  rintro (hx | hx) <;> simp [hx] at h

/-! ## What a turn taken leaves -/

@[simp] theorem turnGone_sys (s : State) : (turnGone s).sys = s.sys := rfl
@[simp] theorem turnGone_args (s : State) : (turnGone s).args = s.args := rfl
@[simp] theorem turnGone_recs (s : State) : (turnGone s).recs = s.recs := rfl
@[simp] theorem turnGone_res (s : State) : (turnGone s).res = s.res := rfl
@[simp] theorem turnGone_rx (s : State) : (turnGone s).rx = s.rx := rfl
@[simp] theorem turnGone_pipe (s : State) : (turnGone s).pipe = s.pipe := rfl
@[simp] theorem turnGone_sa (s : State) : (turnGone s).sa = s.sa := rfl
@[simp] theorem turnGone_mem (s : State) : (turnGone s).mem = s.mem := rfl

/-! ## What the executor and the write of CMD do -/

/-- Settles O6: both clauses are the executor's turn, with the word decoded or nothing in flight. -/
theorem stepRunsTheDecodedCommand : Obligations.StepRunsTheDecodedCommand := by
  intro s hx
  rw [step_eq_executorTurn hx]
  refine ⟨fun i hb hi => ?_, fun hb => executorTurn_idle hb⟩
  have hfetch : decode (fetchWord (turnGone s)) = .ok i := hi
  simp [executorTurn, hb, hfetch]

/-- R22: the opcode byte of a word is its value modulo 2^8. -/
theorem extractLsb'_zero_eq_ofNat (w : Word) : w.extractLsb' 0 8 = BitVec.ofNat 8 w.toNat := by
  simp [BitVec.extractLsb']

/-- Settles O7: the host's turn is an idle write of CMD, which is the issue of the word. -/
theorem cmdWriteIssues : Obligations.CmdWriteIssues := by
  intro s rest w hs hb
  have hissue : step s = .next (issue w (turnTaken rest s)) := by
    simp [step_cons s _ rest hs, runTurn, hostAccess_next, hb, idleAccess, hostWrite]
  rw [hissue, issue, issueFlags, extractLsb'_zero_eq_ofNat]
  rfl

end Sys2Proof.StepCases

/-! SUPPORT. What a command changes and what it leaves (R28, R29, R37, R44, R49, R84, R140): the frame of every rule, and the
statement that collects them. -/

namespace Sys2Proof.CommandFrames

open Sys2Proof.Machine Sys2Proof.Config Sys2Proof.Claims

/-! ## The end of a rule -/

/-- What holds of the state a rule starts from, and of every state the rest of it ends in, holds of the end of the rule. -/
theorem endState_orRaise {α : Type} {P : State → Prop} {r : Except Raised α} {s : State} {k : α → CmdEnd} (hs : P s)
    (hk : ∀ x, r = .ok x → P (endState (k x))) : P (endState (orRaise r s k)) := by
  cases r with
  | ok x => exact hk x rfl
  | error e => exact hs

/-- The same for a rule of two steps, the second run where the first succeeded. -/
theorem endState_andThen {P : State → Prop} {r : CmdEnd} {k : State → CmdEnd} (hr : P (endState r))
    (hk : ∀ t, P t → P (endState (k t))) : P (endState (andThen r k)) := by
  cases r with
  | done t => exact hk t hr
  | raised e t => exact hr

/-! ## The frame of a command -/

/-- R84: t is what command i may make of s. -/
structure Frame (i : Instr) (s t : State) : Prop where
  args : t.args = s.args
  res : i ∉ [.rateFromMcs, .modFromMcs, .slotNre, .tbs] → t.res = s.res
  recs : i ∉ [.fillTb0, .dci2GrantDl, .dci2GrantUl] → t.recs = s.recs
  pipe : i ∉ [.pipeInitTx, .pipeInitRx, .pipeSetCarrier, .pipeFree] → t.pipe = s.pipe
  sa : i ∉ [.saSetCarrier, .saSetCoreset] → t.sa = s.sa
  rx : i ≠ .decode → t.rx = s.rx
  haz : t.sys.haz = s.sys.haz
  cmd : t.sys.cmd = s.sys.cmd
  lastOp : t.sys.lastOp = s.sys.lastOp
  payload : t.mem.payload = s.mem.payload
  rxbuf : t.mem.rxbuf = s.mem.rxbuf
  ce : t.mem.ce = s.mem.ce
  rxpayload : i ≠ .decode → t.mem.rxpayload = s.mem.rxpayload
  rxpayload1 : t.mem.rxpayload[1] = s.mem.rxpayload[1]
  slotbuf : i ∉ [.encode, .saSetCarrier, .baseZero, .pdcchPut, .pdschPut, .genSignal] → t.mem.slotbuf = s.mem.slotbuf
  pdcch : i = .pdcchPut → ∀ a addr, a ≠ 0 → bankRead t.mem.slotbuf a addr = bankRead s.mem.slotbuf a addr

theorem Frame.refl (i : Instr) (s : State) : Frame i s s := by constructor <;> intros <;> rfl

theorem Frame.trans {i : Instr} {s t u : State} (h : Frame i s t) (k : Frame i t u) : Frame i s u where
  args := k.args.trans h.args
  res hi := (k.res hi).trans (h.res hi)
  recs hi := (k.recs hi).trans (h.recs hi)
  pipe hi := (k.pipe hi).trans (h.pipe hi)
  sa hi := (k.sa hi).trans (h.sa hi)
  rx hi := (k.rx hi).trans (h.rx hi)
  haz := k.haz.trans h.haz
  cmd := k.cmd.trans h.cmd
  lastOp := k.lastOp.trans h.lastOp
  payload := k.payload.trans h.payload
  rxbuf := k.rxbuf.trans h.rxbuf
  ce := k.ce.trans h.ce
  rxpayload hi := (k.rxpayload hi).trans (h.rxpayload hi)
  rxpayload1 := k.rxpayload1.trans h.rxpayload1
  slotbuf hi := (k.slotbuf hi).trans (h.slotbuf hi)
  pdcch hi a addr ha := (k.pdcch hi a addr ha).trans (h.pdcch hi a addr ha)

/-- R318: completion keeps the frame. -/
theorem Frame.finish {i : Instr} {s : State} {r : CmdEnd} (h : Frame i s (endState r)) : Frame i s (finishState r) :=
  h.trans (by cases r <;> constructor <;> intros <;> rfl)

/-! ## One write of a rule -/

section
variable {i : Instr} (s : State)

theorem frame_res (x : ResRegs) (hi : i ∈ [Instr.rateFromMcs, .modFromMcs, .slotNre, .tbs] := by decide) :
    Frame i s { s with res := x } := by
  constructor
  case res => exact absurd hi
  all_goals intros; rfl

theorem frame_recs (x : Records) (hi : i ∈ [Instr.fillTb0, .dci2GrantDl, .dci2GrantUl] := by decide) :
    Frame i s { s with recs := x } := by
  constructor
  case recs => exact absurd hi
  all_goals intros; rfl

theorem frame_pipe (x : PipeRegs) (hi : i ∈ [Instr.pipeInitTx, .pipeInitRx, .pipeSetCarrier, .pipeFree] := by decide) :
    Frame i s { s with pipe := x } := by
  constructor
  case pipe => exact absurd hi
  all_goals intros; rfl

theorem frame_sa (x : SaRegs) (hi : i ∈ [Instr.saSetCarrier, .saSetCoreset] := by decide) :
    Frame i s { s with sa := x } := by
  constructor
  case sa => exact absurd hi
  all_goals intros; rfl

theorem frame_env (x : Env) : Frame i s { s with env := x } := by constructor <;> intros <;> rfl

theorem frame_rx (x : RxRegs) (hi : i = .decode := by rfl) : Frame i s { s with rx := x } := by
  constructor
  case rx => exact absurd hi
  all_goals intros; rfl

/-- A rule other than PDCCH_PUT's writes the slot buffer. -/
theorem frame_slotbuf (x : Vector (Mem Sample) 4)
    (hi : i ∈ [Instr.encode, .saSetCarrier, .baseZero, .pdschPut, .genSignal] := by decide) :
    Frame i s { s with mem := { s.mem with slotbuf := x } } := by
  constructor
  case slotbuf => exact fun hn => absurd (by revert hi; cases i <;> decide) hn
  case pdcch => rintro rfl; exact absurd hi (by decide)
  all_goals intros; rfl

end

/-- R274: a write on antenna 0 by PDCCH_PUT. -/
theorem frame_pdcchWrites (w : List (Nat × Nat × Sample)) (s : State) :
    Frame .pdcchPut s (putSlot (pdcchWrites w) s) := by
  constructor
  case slotbuf => exact absurd (by decide)
  case pdcch =>
    intro _ a addr ha
    refine bankRead_slotWriteAll_other _ _ _ _ _ fun e he hea => ha ?_
    obtain ⟨x, -, rfl⟩ := List.mem_map.mp he
    exact hea.1.symm
  all_goals intros; rfl

/-! ## The Resource Allocation Engine -/

theorem slotNre_frame (s : State) :
    Frame .slotNre s (endState (orRaise (slotNre 0 (patternOf s.recs)) s fun (eff, avail) =>
      .done { s with res := { s.res with nre := fieldOf 20 eff, nreAvail := fieldOf 20 avail } })) :=
  endState_orRaise (.refl _ s) fun _ _ => frame_res s _

theorem execTbs_frame (s : State) : ∃ r, execTbs s = finish r ∧ Frame .tbs s (endState r) := by
  refine ⟨_, rfl, endState_orRaise (.refl _ s) fun _ _ => ?_⟩
  split
  · exact frame_res s _
  · exact frame_res s _

theorem dci2GrantRule_frame (dir : Bool) (s : State) : Frame (grantOf dir) s (endState (dci2GrantRule dir s)) := by
  unfold dci2GrantRule
  split
  · exact frame_recs s _ (by cases dir <;> decide)
  · exact frame_recs s _ (by cases dir <;> decide)

/-! ## The Data Pipe -/

theorem pipeInitRule_frame (role : Role) (s : State) : Frame (initOf role) s (endState (pipeInitRule role s)) := by
  have hi : initOf role ∈ [Instr.pipeInitTx, .pipeInitRx, .pipeSetCarrier, .pipeFree] := by cases role <;> decide
  refine endState_orRaise (.refl _ s) fun _ _ => ?_
  dsimp only
  split
  · exact (frame_env s _).trans (frame_pipe (allocAsked s) _ hi)
  · exact (frame_env s _).trans (frame_pipe (allocAsked s) _ hi)

theorem execPipeSetCarrier_frame (s : State) :
    ∃ r, execPipeSetCarrier s = finish r ∧ Frame .pipeSetCarrier s (endState r) := by
  refine ⟨_, rfl, endState_orRaise (.refl _ s) fun _ _ => ?_⟩
  split
  · split
    · exact (frame_env s _).trans (frame_pipe (allocAsked s) _)
    · exact frame_env s _
  · exact frame_pipe s _

theorem encodeRule_inFrame {i : Instr} (hi : i = .encode ∨ i = .pdschPut) (step : BitVec 4) (s : State) :
    Frame i s (endState (encodeRule step s)) := by
  obtain ⟨⟨hsys, hargs, hrecs, hres, hpipe, hsa⟩, hrx, hpay, hrxb, hce, hrxp⟩ := encodeRule_frame step s
  constructor
  case slotbuf => intro hn; obtain rfl | rfl := hi <;> exact absurd (by decide) hn
  case pdcch => rintro rfl; simp at hi
  case haz | cmd | lastOp => rw [hsys]
  case rxpayload1 => simp only [hrxp]
  all_goals simp_all

/-- t is s but for the environment. -/
def SameButEnv (s t : State) : Prop := ∃ e, t = { s with env := e }

theorem SameButEnv.refl (s : State) : SameButEnv s s := ⟨s.env, rfl⟩

theorem SameButEnv.trans {s t u : State} (h : SameButEnv s t) (k : SameButEnv t u) : SameButEnv s u := by
  obtain ⟨e, rfl⟩ := h
  obtain ⟨e', rfl⟩ := k
  exact ⟨e', rfl⟩

theorem sameButEnv_advanceDraws (n : Nat) (s : State) : SameButEnv s (advanceDraws n s) := ⟨_, rfl⟩

theorem sameButEnv_recordCall (q : Answers) (e : CollabEvent) (s : State) : SameButEnv s (recordCall q e s) := ⟨_, rfl⟩

theorem decodeAfterChest_same (s : State) : SameButEnv s (decodeAfterChest s) :=
  (sameButEnv_advanceDraws _ s).trans (sameButEnv_recordCall _ _ _)

theorem decodeAfterSeq_same (s : State) : SameButEnv s (decodeAfterSeq s) :=
  (decodeAfterChest_same s).trans (sameButEnv_recordCall _ _ _)

theorem decodeAfterFec_same (s : State) (xh : List (List Sample)) (c : List Bool) :
    SameButEnv s (decodeAfterFec s xh c) := (decodeAfterSeq_same s).trans (sameButEnv_recordCall _ _ _)

/-- R254: an answer of Fec.decode that is taken has TBS bits. -/
theorem length_of_decodePayload {s : State} {bits : List Bool} {ok : Bool} (h : decodePayload s = some (bits, ok)) :
    bits.length = s.recs.tb0.tbs.toNat := by
  obtain ⟨r, -, hr⟩ := Option.bind_eq_some_iff.mp h
  split at hr <;> cases hr
  assumption

/-- R250 to R254: what DECODE can end in: nothing but its calls made, no codeword, or the commit of the decoded bits, which
are no more than a bit array holds. -/
theorem decodeRule_cases (s : State) :
    SameButEnv s (endState (decodeRule s)) ∨
      endState (decodeRule s) = { s with rx := decodeNoCodeword s } ∨
      ∃ t xh bits ok, SameButEnv s t ∧ s.recs.tb0.tbs.toNat ≤ maxTbsBits ∧ bits.length = s.recs.tb0.tbs.toNat ∧
        endState (decodeRule s) = decodeCommit bits (decodeResult s xh ok) t := by
  unfold decodeRule
  cases checkGrant 0 .receiver s with
  | error e => exact .inl (.refl s)
  | ok _ =>
    rw [orRaise_ok]
    split
    case isFalse => exact .inr (.inl rfl)
    case isTrue =>
      cases hcw : checkCodeword 0 .receiver s with
      | error e => exact .inl (.refl s)
      | ok _ =>
        obtain ⟨-, -, htbs, -⟩ := checkCodeword_ok hcw
        rw [orRaise_ok, decodeBody]
        split
        · exact .inl (decodeAfterChest_same s)
        next xh _ =>
          split
          · exact .inl (decodeAfterSeq_same s)
          next c _ =>
            split
            · exact .inl (decodeAfterFec_same s xh c)
            next bits ok hp =>
              exact .inr (.inr ⟨_, xh, bits, ok, decodeAfterFec_same s xh c, htbs, length_of_decodePayload hp, rfl⟩)

theorem decodeRule_frame (s : State) : Frame .decode s (endState (decodeRule s)) := by
  obtain ⟨e, h⟩ | h | ⟨_, xh, bits, ok, ⟨e, rfl⟩, -, -, h⟩ := decodeRule_cases s <;> rw [h]
  · exact frame_env s e
  · exact frame_rx s _
  · constructor
    case rx | rxpayload => exact absurd rfl
    case rxpayload1 => exact Vector.getElem_set_ne (by decide) (by decide) (by decide)
    all_goals intros; rfl

/-! ## The Slot Assembler -/

theorem execSaSetCarrier_frame (s : State) :
    ∃ r, execSaSetCarrier s = finish r ∧ Frame .saSetCarrier s (endState r) := by
  have hlost : ∀ x : SaRegs, ∀ t : State, Frame .saSetCarrier s t → Frame .saSetCarrier s (slotUndefined { t with sa := x }) :=
    fun x t h => (h.trans (frame_sa t x)).trans (frame_slotbuf { t with sa := x } _)
  refine ⟨_, rfl, endState_orRaise (.refl _ s) fun _ _ => ?_⟩
  dsimp only
  split
  · split
    · exact hlost _ _ (frame_env s _)
    · exact frame_env s _
  · exact hlost _ _ (.refl _ s)

theorem pdcchPlace_frame (step : BitVec 4) (ans : Option (List (Nat × Nat × Sample))) (s : State) :
    Frame .pdcchPut s (endState (pdcchPlace step ans s)) := by
  obtain ⟨-, h⟩ | ⟨w, -, ⟨-, h⟩ | ⟨-, h⟩⟩ := pdcchPlace_cases step ans s <;> rw [h]
  · exact .refl _ s
  · exact frame_pdcchWrites w s
  · exact .refl _ s

theorem execPdcchPut_frame (s : State) : ∃ r, execPdcchPut s = finish r ∧ Frame .pdcchPut s (endState r) :=
  ⟨_, rfl, endState_orRaise (.refl _ s) fun _ _ => endState_andThen
    ((frame_env s _).trans (pdcchPlace_frame 1 _ (pdcchDmrsCalled s)))
    fun t ht => ht.trans ((frame_env t _).trans (pdcchPlace_frame 2 _ (pdcchEncodeCalled t)))⟩

theorem pdschStep1_frame (s : State) : Frame .pdschPut s (endState (pdschStep1 s)) := by
  refine endState_orRaise (.refl _ s) fun _ _ => ?_
  split
  · exact frame_env s _
  · exact (frame_env s _).trans (frame_slotbuf (dmrsCalled s) _)

theorem genAntennas_inFrame (antennas : List Nat) (s : State) :
    Frame .genSignal s (endState (genAntennas antennas s)) := by
  induction antennas generalizing s with
  | nil => exact frame_slotbuf s _
  | cons a rest ih =>
    have hcall : Frame .genSignal s (transformed a s) := frame_env s _
    simp only [genAntennas]
    split
    · exact hcall.trans (ih (transformed a s))
    · exact hcall.trans (frame_slotbuf (transformed a s) _)

/-! ## Every command -/

/-- R84: every command completes a rule whose end is in the command's frame. -/
theorem exec_ends_in_frame (i : Instr) (s : State) : ∃ r, exec i s = finish r ∧ Frame i s (endState r) := by
  cases i with
  | rateFromMcs => exact ⟨_, rfl, frame_res s _⟩
  | modFromMcs => exact ⟨_, rfl, frame_res s _⟩
  | slotNre => exact ⟨_, rfl, slotNre_frame s⟩
  | tbs => exact execTbs_frame s
  | fillTb0 => exact ⟨_, rfl, endState_orRaise (.refl _ s) fun _ _ => frame_recs s _⟩
  | fillTb1 => exact ⟨_, rfl, .refl _ s⟩
  | dci2GrantDl => exact ⟨_, rfl, dci2GrantRule_frame false s⟩
  | dci2GrantUl => exact ⟨_, rfl, dci2GrantRule_frame true s⟩
  | pipeInitTx => exact ⟨_, rfl, pipeInitRule_frame .transmitter s⟩
  | pipeInitRx => exact ⟨_, rfl, pipeInitRule_frame .receiver s⟩
  | pipeSetCarrier => exact execPipeSetCarrier_frame s
  | pipeFree => exact ⟨_, rfl, frame_pipe s _⟩
  | encode => exact ⟨_, rfl, encodeRule_inFrame (.inl rfl) 0 s⟩
  | decode => exact ⟨_, rfl, decodeRule_frame s⟩
  | saSetCarrier => exact execSaSetCarrier_frame s
  | saSetCoreset => exact ⟨_, rfl, endState_orRaise (.refl _ s) fun _ _ => frame_sa s _⟩
  | baseZero => exact ⟨_, rfl, endState_orRaise (.refl _ s) fun _ _ => frame_slotbuf s _⟩
  | pdcchPut => exact execPdcchPut_frame s
  | pdschPut =>
    exact ⟨_, rfl, endState_andThen (pdschStep1_frame s) fun t ht => ht.trans (encodeRule_inFrame (.inr rfl) 2 t)⟩
  | genSignal => exact ⟨_, rfl, endState_orRaise (.refl _ s) fun _ _ => genAntennas_inFrame _ s⟩

/-- R84: the next state of a command is in the command's frame. -/
theorem exec_frame {i : Instr} {s t : State} (h : exec i s = .next t) : Frame i s t := by
  obtain ⟨r, hr, hf⟩ := exec_ends_in_frame i s
  obtain rfl := (finish_next_iff r t).mp (hr ▸ h)
  exact hf.finish

/-- Settles O22: the frames of the twenty commands, each by its own rule. -/
theorem commandsChangeOnlyTheirOwn : Obligations.CommandsChangeOnlyTheirOwn := by
  intro i s
  obtain ⟨r, hr, hf⟩ := exec_ends_in_frame i s
  obtain ⟨hargs, hres, hrecs, hpipe, hsa, hrx, hhaz, hcmd, hlast, hpay, hrxb, hce, hrxp, hrxp1, hslot, hpdcch⟩ := hf.finish
  exact ⟨finishState r, hr, hargs, hres, hrecs, hpipe, hsa, hrx, hhaz, hcmd, hlast, hpay, hrxb, hce, hrxp, hrxp1, hslot,
    hpdcch⟩

end Sys2Proof.CommandFrames

/-! SUPPORT. What an access of the host to an idle block does (R21, R75). -/

namespace Sys2Proof.HostFrames

open Sys2Proof.Machine Sys2Proof.Config Sys2Proof.Claims Sys2Proof.RegisterStorage Sys2Proof.CommandFrames

/-- t is s but for what the host writes: argument registers, records and memory. -/
def SameButStored (s t : State) : Prop :=
  ∃ args recs mem env, t = { s with args := args, recs := recs, mem := mem, env := env }

theorem regStore_stored (a : BitVec 9) (v : Word) (s : State) : SameButStored s (regStore a v s) :=
  ⟨_, _, _, _, regStore_args_recs a v s⟩

theorem sampleWrite_stored (sp : SampleSpace) (addr : Nat) (v : Sample) (s : State) :
    SameButStored s (sampleWrite sp addr v s) := by
  cases sp <;> exact ⟨_, _, _, _, rfl⟩

theorem wordWrite_stored (sp : BitSpace) (addr : Nat) (v : Word) (s : State) :
    SameButStored s (wordWrite sp addr v s) := by
  cases sp <;> exact ⟨_, _, _, _, rfl⟩

theorem ifInSpace_stored {s t : State} (h : SameButStored s t) (addr n : Nat) :
    SameButStored s (ifInSpace addr n t s) := by
  obtain ⟨-, hw⟩ | ⟨-, hw⟩ := ifInSpace_cases addr n t s <;> rw [hw]
  · exact h
  · exact ⟨_, _, _, _, rfl⟩

/-- R21, R22, R75: an access to an idle block issues a command, or touches no system, result or unit register. -/
theorem idleAccess_cases (x : HostAccess) (s : State) :
    (∃ w, idleAccess x s = issue w s) ∨ SameButStored s (idleAccess x s) := by
  cases x with
  | regRead a => exact .inr ⟨_, _, _, _, rfl⟩
  | regWrite a v =>
    by_cases ha : a = 0
    · exact .inl ⟨v, if_pos ha⟩
    · refine .inr (show SameButStored s (hostWrite a v s) from ?_)
      rw [hostWrite, if_neg ha]
      exact regStore_stored a v s
  | readSample sp addr => exact .inr ⟨_, _, _, _, rfl⟩
  | writeSample sp addr v => exact .inr (ifInSpace_stored (sampleWrite_stored sp addr v s) _ _)
  | readBits sp addr => exact .inr ⟨_, _, _, _, rfl⟩
  | writeBits sp addr v => exact .inr (ifInSpace_stored (wordWrite_stored sp addr v s) _ _)
  | readCe addr => exact .inr ⟨_, _, _, _, rfl⟩
  | writeCe addr v => exact .inr ⟨_, _, _, _, rfl⟩

/-- R75: an access to an idle block changes no result or unit register. -/
theorem idleAccess_frame (x : HostAccess) (s : State) :
    (idleAccess x s).res = s.res ∧ (idleAccess x s).rx = s.rx ∧ (idleAccess x s).pipe = s.pipe ∧
      (idleAccess x s).sa = s.sa := by
  obtain ⟨w, h⟩ | ⟨_, _, _, _, h⟩ := idleAccess_cases x s <;> rw [h] <;> exact ⟨rfl, rfl, rfl, rfl⟩

/-- R22, R318: an access to an idle block leaves the system registers, or issues a command. -/
theorem idleAccess_sys (x : HostAccess) (s : State) :
    (idleAccess x s).sys = s.sys ∨ ∃ w, (idleAccess x s).sys = issueFlags w s.sys := by
  obtain ⟨w, h⟩ | ⟨_, _, _, _, h⟩ := idleAccess_cases x s <;> rw [h]
  · exact .inr ⟨w, rfl⟩
  · exact .inl rfl

end Sys2Proof.HostFrames

/-! SUPPORT. The system registers over a step: the count of completions and the status record (R23, R24, R310 to R318). -/

namespace Sys2Proof.StatusSteps

open Sys2Proof.Machine Sys2Proof.Claims Sys2Proof.CommandEnds Sys2Proof.StepCases Sys2Proof.HostFrames

/-- R24: CMDCNT after one step from s. -/
def nextCount (s : State) : Word :=
  if s.env.schedule.head? = some .reset then 0
  else if (s.env.schedule.head? = some .executor ∨ s.env.schedule = []) ∧ s.sys.busy = true then s.sys.cmdcnt + 1
  else s.sys.cmdcnt

theorem nextCount_of_completion {s : State} (hx : ExecutorNext s) (hb : s.sys.busy = true) :
    nextCount s = s.sys.cmdcnt + 1 := by
  rw [nextCount, if_neg (not_reset_of_executorNext hx)]
  exact if_pos ⟨hx, hb⟩

theorem nextCount_of_other {s : State} (hr : s.env.schedule.head? ≠ some .reset)
    (h : ¬ (ExecutorNext s ∧ s.sys.busy = true)) : nextCount s = s.sys.cmdcnt := by
  rw [nextCount, if_neg hr]
  exact if_neg h

theorem nextCount_of_host {s : State} {x : HostAccess} (h : s.env.schedule.head? = some (.host x)) :
    nextCount s = s.sys.cmdcnt :=
  nextCount_of_other (by simp [h]) fun hx => not_executorNext_of_host h hx.1

/-- Settles O19: the six cases of a step. -/
theorem cmdcntCountsCompletions : Obligations.CmdcntCountsCompletions := by
  intro s t h
  change t.sys.cmdcnt = nextCount s
  cases step_cases h with
  | reset hturn => exact (if_pos hturn).symm
  | idle hx hb => exact (nextCount_of_other (not_reset_of_executorNext hx) (by simp [hb])).symm
  | command hx hb hi ht =>
    obtain ⟨u, hu, -, -, hcount⟩ := (exec_completes _ _).reaches_completed
    obtain rfl : u = t := Host.Outcome.next.inj (hu.symm.trans ht)
    exact hcount.trans (nextCount_of_completion hx hb).symm
  | reserved hx hb => exact (nextCount_of_completion hx hb).symm
  | busyHost hturn hb => exact (busyAccess_keeps_flight _ _).2.trans (nextCount_of_host hturn).symm
  | @idleHost x hturn hb =>
    obtain hsys | ⟨w, hsys⟩ := idleAccess_sys x (turnGone s) <;> rw [hsys] <;> exact (nextCount_of_host hturn).symm

/-! ## The status record -/

theorem statusInv_iff (y : SystemRegs) :
    statusInv y = true ↔
      (y.busy = true → y.done = false ∧ y.err = false) ∧ y.lastOp = y.cmd.extractLsb' 0 8 ∧
        (y.err = true → y.errCode ∈ knownCodes ∧ y.errClass = classOfNum y.errCode) ∧
        (y.err = false → y.errClass = 0 ∧ y.errCode = 0 ∧ y.errStep = 0) := by
  cases hb : y.busy <;> cases he : y.err <;> simp [statusInv, hb, he, and_assoc]

/-- R318: the issue of a word makes the record whole. -/
theorem statusInv_issue (w : Word) (y : SystemRegs) : statusInv (issueFlags w y) = true := by
  simp [statusInv_iff, issueFlags]

/-- R366: HAZ is no part of the record. -/
theorem statusInv_hazard {y : SystemRegs} (h : statusInv y = true) : statusInv (hazardFlags y) = true := h

/-- R318: a success keeps the record. -/
theorem statusInv_done {y : SystemRegs} (h : statusInv y = true) : statusInv (doneFlags y) = true := by
  rw [statusInv_iff] at h ⊢
  exact ⟨nofun, h.2⟩

/-- R310, R318: a failure with a known code and its class makes the record whole. -/
theorem statusInv_failed {s : State} {cls : BitVec 3} {code : BitVec 8} (stp : BitVec 4) (h : statusInv s.sys = true)
    (hcode : code ∈ knownCodes) (hcls : cls = classOfNum code) : statusInv (failed cls code stp s).sys = true := by
  rw [statusInv_iff] at h ⊢
  exact ⟨nofun, h.2.1, fun _ => ⟨hcode, hcls⟩, nofun⟩

/-- R318: completion keeps the record. -/
theorem statusInv_completes {cs : List (BitVec 3)} {s t : State} (h : statusInv s.sys = true)
    (hc : Completes cs s (.next t)) : statusInv t.sys = true := by
  obtain ⟨u, hu, hend⟩ := hc.success_or_failure
  cases hu
  obtain hsys | ⟨cls, code, stp, hsys, -, hcode, hcls⟩ := hend <;> rw [hsys]
  · exact statusInv_done h
  · exact statusInv_failed stp h hcode hcls

/-- Settles O27: a completion keeps the record, an issue makes it anew, and other turns leave it. -/
theorem stepKeepsStatusRecord : Obligations.StepKeepsStatusRecord := by
  intro s t hinv h
  cases step_cases h with
  | reset => exact (by decide : statusInv State.reset.sys = true)
  | idle => exact hinv
  | @command i _ _ _ _ ht => exact statusInv_completes (s := turnGone s) hinv (ht ▸ exec_completes i _)
  | reserved => exact statusInv_completes (s := turnGone s) hinv (reservedWord_completes _)
  | @busyHost x =>
    obtain ⟨-, -, -, -, -, -, -, hsys | hsys⟩ := busyAccess_frame x (turnGone s) <;> rw [hsys]
    · exact hinv
    · exact statusInv_hazard hinv
  | @idleHost x =>
    obtain hsys | ⟨w, hsys⟩ := idleAccess_sys x (turnGone s) <;> rw [hsys]
    · exact hinv
    · exact statusInv_issue w _

end Sys2Proof.StatusSteps

/-! SUPPORT. The memories over a step (R61, R62, R70): the canonical form, and no bit at or beyond the capacity of a bit
array. Commands write the slot buffer by whole lists of writes, and only DECODE writes a bit array; the host writes one
element. -/

namespace Sys2Proof.MemoryOrder

open Sys2Proof.Machine Sys2Proof.Config Sys2Proof.Claims Sys2Proof.StepCases Sys2Proof.CommandFrames

/-! ## Bits below the capacity (R62) -/

/-- No bit at or beyond MAX_TBS_BITS is defined. -/
def BitsBelow (m : Mem Bool) : Prop := ∀ e ∈ m, e.1 < maxTbsBits

/-- A write defines no element but its own. -/
theorem mem_memWrite {α : Type} {m : Mem α} {a : Nat} {v : α} {e : Nat × α} (h : e ∈ memWrite m a v) :
    e = (a, v) ∨ e ∈ m := by
  induction m with
  | nil => exact .inl (List.mem_singleton.mp h)
  | cons d m ih =>
    obtain ⟨b, u⟩ := d
    rw [memWrite] at h
    split at h
    · exact List.mem_cons.mp h
    split at h
    · exact (List.mem_cons.mp h).imp_right (List.mem_cons_of_mem _)
    · obtain rfl | h := List.mem_cons.mp h
      · exact .inr List.mem_cons_self
      · exact (ih h).imp_right (List.mem_cons_of_mem _)

theorem BitsBelow.memWriteAll {m : Mem Bool} (h : BitsBelow m) {ws : List (Nat × Bool)}
    (hws : ∀ w ∈ ws, w.1 < maxTbsBits) : BitsBelow (memWriteAll m ws) := by
  induction ws generalizing m with
  | nil => exact h
  | cons w ws ih =>
    refine ih (fun e he => ?_) fun x hx => hws x (List.mem_cons_of_mem _ hx)
    obtain rfl | he := mem_memWrite he
    · exact hws w List.mem_cons_self
    · exact h e he

/-- R254: a stored payload that fits the array stays below its capacity. -/
theorem BitsBelow.storeBits {m : Mem Bool} (h : BitsBelow m) {bits : List Bool} (hlen : bits.length ≤ maxTbsBits) :
    BitsBelow (storeBits m bits) := by
  refine h.memWriteAll fun w hw => ?_
  obtain ⟨p, hp, rfl⟩ := List.mem_map.mp hw
  have := List.snd_lt_of_mem_zipIdx hp
  simp only at this ⊢
  omega

/-- R72: the bits of a word of the array are below its capacity. -/
theorem wordBits_lt {addr : Nat} (h : addr < bitWords) (v : Word) : ∀ w ∈ wordBits addr v, w.1 < maxTbsBits := by
  intro w hw
  obtain ⟨i, hi, rfl⟩ := List.mem_map.mp hw
  have hi := List.mem_range.mp hi
  simp only [bitWords, maxTbsBits] at h ⊢
  omega

/-- Every bit array of a family is below its capacity. -/
def BankBelow {n : Nat} (t : Vector (Mem Bool) n) : Prop := ∀ i (h : i < n), BitsBelow t[i]

theorem bankBelow_iff {n : Nat} (t : Vector (Mem Bool) n) :
    BankBelow t ↔ (t.toList.all fun m => m.all fun e => decide (e.1 < maxTbsBits)) = true := by
  simp [BankBelow, BitsBelow]

theorem BankBelow.set {n : Nat} {t : Vector (Mem Bool) n} (h : BankBelow t) {i : Nat} (hi : i < n) {m : Mem Bool}
    (hm : BitsBelow m) : BankBelow (t.set i m hi) := by
  intro j hj
  rw [Vector.getElem_set]
  split
  · exact hm
  · exact h j hj

/-- Both bit arrays are below their capacity. -/
def ArraysBelow (m : Memories) : Prop := BankBelow m.payload ∧ BankBelow m.rxpayload

theorem bitsInArrays_iff (s : State) : bitsInArrays s = true ↔ ArraysBelow s.mem := by
  rw [bitsInArrays, Bool.and_eq_true, ArraysBelow, bankBelow_iff, bankBelow_iff]

theorem arraysBelow_reset : ArraysBelow State.reset.mem := by
  refine ⟨fun i hi => ?_, fun i hi => ?_⟩ <;>
    exact (Vector.getElem_replicate hi : (Vector.replicate 2 ([] : Mem Bool))[i] = []) ▸ nofun

/-! ## Memories kept in order -/

/-- From memory m to m' the canonical form and the capacities are kept. -/
def OrderKept (m m' : Memories) : Prop :=
  (memoriesWf m = true → memoriesWf m' = true) ∧ (ArraysBelow m → ArraysBelow m')

theorem OrderKept.of_eq {m m' : Memories} (h : m' = m) : OrderKept m m' := h ▸ ⟨id, id⟩

/-- A change of the slot buffer alone. -/
theorem OrderKept.of_slotbuf {m m' : Memories} (hslot : bankWf m.slotbuf → bankWf m'.slotbuf)
    (hpay : m'.payload = m.payload) (hrxb : m'.rxbuf = m.rxbuf) (hce : m'.ce = m.ce) (hrxp : m'.rxpayload = m.rxpayload) :
    OrderKept m m' := by
  refine ⟨fun h => ?_, fun h => ?_⟩
  · rw [memoriesWf_iff] at h ⊢
    rw [hpay, hrxb, hce, hrxp]
    exact ⟨hslot h.1, h.2⟩
  · rwa [ArraysBelow, hpay, hrxp]

/-! ## Commands -/

/-- The slot buffer keeps its canonical form. -/
def SlotKept (s t : State) : Prop := bankWf s.mem.slotbuf → bankWf t.mem.slotbuf

theorem SlotKept.refl (s : State) : SlotKept s s := id

theorem SlotKept.trans {s t u : State} (h : SlotKept s t) (k : SlotKept t u) : SlotKept s u := k ∘ h

theorem SlotKept.of_env {s t : State} (h : SameButEnv s t) : SlotKept s t := by
  obtain ⟨e, rfl⟩ := h
  exact id

theorem slotKept_putSlot (ws : List SlotWrite) (s : State) : SlotKept s (putSlot ws s) := bankWf_slotWriteAll _ ws

theorem slotKept_slotUndefined (s t : State) : SlotKept s (slotUndefined t) := fun _ => bankWf_replicate

/-- A placed list of slot writes after calls that touch the environment alone. -/
theorem SlotKept.putSlot {s t : State} (h : SameButEnv s t) (ws : List SlotWrite) : SlotKept s (putSlot ws t) :=
  (SlotKept.of_env h).trans (slotKept_putSlot ws t)

theorem encodeAfterFec_same (s : State) : SameButEnv s (encodeAfterFec s) :=
  (sameButEnv_advanceDraws _ s).trans (sameButEnv_recordCall _ _ _)

theorem encodeAfterSeq_same (s : State) : SameButEnv s (encodeAfterSeq s) :=
  (encodeAfterFec_same s).trans (sameButEnv_recordCall _ _ _)

theorem encodeRule_slotKept (step : BitVec 4) (s : State) : SlotKept s (endState (encodeRule step s)) := by
  refine endState_orRaise (.refl s) fun _ _ => ?_
  split
  case isFalse => exact .refl s
  case isTrue =>
    refine endState_orRaise (.refl s) fun _ _ => ?_
    unfold encodeBody
    split
    · exact .of_env (encodeAfterFec_same s)
    · split
      · exact .of_env (encodeAfterSeq_same s)
      · exact .putSlot (encodeAfterSeq_same s) _

theorem pdcchPlace_slotKept (step : BitVec 4) (ans : Option (List (Nat × Nat × Sample))) (s : State) :
    SlotKept s (endState (pdcchPlace step ans s)) := by
  obtain ⟨-, h⟩ | ⟨w, -, ⟨-, h⟩ | ⟨-, h⟩⟩ := pdcchPlace_cases step ans s <;> rw [h]
  · exact .refl s
  · exact slotKept_putSlot _ s
  · exact .refl s

theorem pdschStep1_slotKept (s : State) : SlotKept s (endState (pdschStep1 s)) := by
  have hcall : SameButEnv s (dmrsCalled s) := sameButEnv_recordCall _ _ _
  refine endState_orRaise (.refl s) fun _ _ => ?_
  split
  · exact .of_env hcall
  · exact .putSlot hcall _

theorem execSaSetCarrier_slotKept (s : State) :
    ∃ r, execSaSetCarrier s = finish r ∧ SlotKept s (endState r) := by
  refine ⟨_, rfl, endState_orRaise (.refl s) fun _ _ => ?_⟩
  dsimp only
  split
  · split
    · exact slotKept_slotUndefined s _
    · exact .of_env ⟨_, rfl⟩
  · exact slotKept_slotUndefined s _

theorem genAntennas_slotKept (antennas : List Nat) (s : State) : SlotKept s (endState (genAntennas antennas s)) := by
  obtain ⟨-, -, hmem⟩ := genAntennas_frame antennas s
  intro _
  rw [hmem]
  exact bankWf_replicate

/-- R71: the commands that write the slot buffer keep its canonical form. -/
theorem slotWriters_kept {i : Instr} (hi : i ∈ [Instr.encode, .saSetCarrier, .baseZero, .pdcchPut, .pdschPut, .genSignal])
    (s : State) : ∃ r, exec i s = finish r ∧ SlotKept s (endState r) := by
  simp only [List.mem_cons, List.not_mem_nil, or_false] at hi
  obtain rfl | rfl | rfl | rfl | rfl | rfl := hi
  · exact ⟨_, rfl, encodeRule_slotKept 0 s⟩
  · exact execSaSetCarrier_slotKept s
  · exact ⟨_, rfl, endState_orRaise (.refl s) fun _ _ => slotKept_putSlot _ s⟩
  · exact ⟨_, rfl, endState_orRaise (.refl s) fun _ _ => endState_andThen
      ((SlotKept.of_env (sameButEnv_recordCall _ _ s)).trans (pdcchPlace_slotKept 1 _ (pdcchDmrsCalled s)))
      fun t ht => ht.trans ((SlotKept.of_env (sameButEnv_recordCall _ _ t)).trans
        (pdcchPlace_slotKept 2 _ (pdcchEncodeCalled t)))⟩
  · exact ⟨_, rfl, endState_andThen (pdschStep1_slotKept s) fun t ht => ht.trans (encodeRule_slotKept 2 t)⟩
  · exact ⟨_, rfl, endState_orRaise (.refl s) fun _ _ => genAntennas_slotKept _ s⟩

theorem exec_slotKept {i : Instr} {s t : State} (h : exec i s = .next t) : SlotKept s t := by
  by_cases hi : i ∈ [Instr.encode, .saSetCarrier, .baseZero, .pdcchPut, .pdschPut, .genSignal]
  · obtain ⟨r, hr, hk⟩ := slotWriters_kept hi s
    obtain rfl := (finish_next_iff r t).mp (hr ▸ h)
    obtain ⟨-, -, -, -, -, -, hmem, -⟩ := finishState_fields r
    rwa [SlotKept, hmem]
  · rw [SlotKept, (exec_frame h).slotbuf hi]
    exact id

/-- R254: DECODE stores its payload in order. -/
theorem decodeRule_orderKept (s : State) : OrderKept s.mem (endState (decodeRule s)).mem := by
  obtain ⟨e, h⟩ | h | ⟨_, xh, bits, ok, ⟨e, rfl⟩, htbs, hlen, h⟩ := decodeRule_cases s <;> rw [h]
  · exact .of_eq rfl
  · exact .of_eq rfl
  · refine ⟨memoriesWf_decodeCommit (s := { s with env := e }) bits _, fun ⟨hpay, hrxp⟩ => ⟨hpay, ?_⟩⟩
    exact hrxp.set (by decide) ((hrxp 0 (by decide)).storeBits (hlen.le.trans htbs))

/-- R62, R70: every command keeps the memories in order. -/
theorem exec_orderKept {i : Instr} {s t : State} (h : exec i s = .next t) : OrderKept s.mem t.mem := by
  by_cases hi : i = .decode
  · subst hi
    obtain rfl := (finish_next_iff (decodeRule s) t).mp h
    obtain ⟨-, -, -, -, -, -, hmem, -⟩ := finishState_fields (decodeRule s)
    exact hmem ▸ decodeRule_orderKept s
  · have hf := exec_frame h
    exact .of_slotbuf (exec_slotKept h) hf.payload hf.rxbuf hf.ce (hf.rxpayload hi)

/-! ## The host -/

theorem sampleWrite_orderKept (sp : SampleSpace) (addr : Nat) (v : Sample) (s : State) :
    OrderKept s.mem (sampleWrite sp addr v s).mem :=
  ⟨memoriesWf_sampleWrite sp addr v, by cases sp <;> exact id⟩

theorem wordWrite_orderKept (sp : BitSpace) {addr : Nat} (haddr : addr < bitWords) (v : Word) (s : State) :
    OrderKept s.mem (wordWrite sp addr v s).mem := by
  refine ⟨memoriesWf_wordWrite sp addr v, fun ⟨hpay, hrxp⟩ => ?_⟩
  cases sp with
  | payload c => exact ⟨hpay.set c.isLt ((hpay c c.isLt).memWriteAll (wordBits_lt haddr v)), hrxp⟩
  | rxpayload c => exact ⟨hpay, hrxp.set c.isLt ((hrxp c c.isLt).memWriteAll (wordBits_lt haddr v))⟩

/-- R75: an access of the host to an idle block keeps the memories in order. -/
theorem idleAccess_orderKept (x : HostAccess) (s : State) : OrderKept s.mem (idleAccess x s).mem := by
  cases x with
  | regRead | readSample | readBits | readCe => exact .of_eq rfl
  | regWrite a v =>
    refine .of_eq (show (hostWrite a v s).mem = s.mem from ?_)
    rw [hostWrite]
    split
    · rfl
    · rw [RegisterStorage.regStore_args_recs]
  | writeSample sp addr v =>
    rw [idleAccess]
    obtain ⟨-, h⟩ | ⟨-, h⟩ := ifInSpace_cases addr (sampleElems sp s) (sampleWrite sp addr v s) s <;> rw [h]
    · exact sampleWrite_orderKept sp addr v s
    · exact .of_eq rfl
  | writeBits sp addr v =>
    rw [idleAccess]
    obtain ⟨haddr, h⟩ | ⟨-, h⟩ := ifInSpace_cases addr bitWords (wordWrite sp addr v s) s <;> rw [h]
    · exact wordWrite_orderKept sp haddr v s
    · exact .of_eq rfl
  | writeCe addr v => exact ⟨memoriesWf_writeCe addr v, id⟩

/-! ## Every step -/

/-- R62, R70: every step keeps the memories in order. -/
theorem step_orderKept {s t : State} (h : step s = .next t) : OrderKept s.mem t.mem := by
  cases step_cases h with
  | reset => exact ⟨fun _ => memoriesWf_reset, fun _ => arraysBelow_reset⟩
  | idle | reserved => exact .of_eq rfl
  | command _ _ _ ht => exact exec_orderKept (s := turnGone s) ht
  | @busyHost x =>
    obtain ⟨-, -, -, -, -, -, hmem, -⟩ := busyAccess_frame x (turnGone s)
    exact .of_eq hmem
  | @idleHost x => exact idleAccess_orderKept x (turnGone s)

/-- Settles O24: every step keeps the memories in order, the cases of a step one by one. -/
theorem stepKeepsMemoriesInOrder : Obligations.StepKeepsMemoriesInOrder := by
  intro s t h
  rw [bitsInArrays_iff, bitsInArrays_iff]
  exact step_orderKept h

end Sys2Proof.MemoryOrder

/-! SUPPORT. The result registers over a step (R44, R49, R124, R143 to R151, R254): what the lookups and counts can write, and
what DECODE can write. -/

namespace Sys2Proof.ResultSteps

open Sys2Proof.Machine Sys2Proof.Config Sys2Proof.Claims Sys2Proof.StepCases Sys2Proof.CommandFrames Sys2Proof.HostFrames

/-! ## The lookups (R143 to R145, R191 to R193) -/

/-- R191 to R193: every row has a legal order and a rate from 60 to 1896. -/
theorem mcsRows_legal (t : McsTable) : ∀ e ∈ mcsRows t, qmLegal e.1 = true ∧ 60 ≤ e.2 ∧ e.2 ≤ 1896 := by
  cases t <;> decide

/-- R143: a lookup with a result answers a row of a table. -/
theorem mcsLookup_legal {tbl : BitVec 2} {fmt : BitVec 3} {ss : BitVec 2} {rnti : BitVec 4} {mcs : BitVec 5} {e : Nat × Nat}
    (h : mcsLookup tbl fmt ss rnti mcs = some e) : qmLegal e.1 = true ∧ 60 ≤ e.2 ∧ e.2 ≤ 1896 := by
  unfold mcsLookup at h
  split at h
  · cases h
  next t _ => exact mcsRows_legal t e (List.mem_of_getElem? h)

theorem qmLegal_le {qm : Nat} (h : qmLegal qm = true) : qm ≤ 8 := by
  simp only [qmLegal, Bool.or_eq_true, beq_iff_eq] at h
  omega

theorem toNat_fieldOf {n v : Nat} (h : v < 2 ^ n) : (fieldOf n v).toNat = v := by
  rw [fieldOf, BitVec.toNat_ofNat, Nat.mod_eq_of_lt h]

/-! ## The invariant of RES_*, register by register -/

/-- R124: RES_RATE is the sentinel, 0 or a rate. -/
def RateHeld (r : ResRegs) : Prop :=
  (r.rateInvalid = true → r.rate = 0) ∧
    (r.rateInvalid = false → r.rate = 0 ∨ (60 ≤ r.rate.toNat ∧ r.rate.toNat ≤ 1896))

theorem resInv_iff (r : ResRegs) :
    resInv r = true ↔
      RateHeld r ∧ (r.qm = 0 ∨ qmLegal r.qm.toNat = true) ∧ r.tbs.toNat % 8 = 0 ∧ r.nre.toNat ≤ r.nreAvail.toNat := by
  cases h : r.rateInvalid <;> simp [resInv, RateHeld, h, and_assoc]

/-- R144: RATE_FROM_MCS writes the sentinel or a rate. -/
theorem resInv_rateResult (op : OpArgs) {r : ResRegs} (h : resInv r = true) :
    resInv (rateResult (opLookup op) r) = true := by
  rw [resInv_iff] at h ⊢
  obtain ⟨-, hrest⟩ := h
  unfold rateResult
  split
  next => exact ⟨⟨fun _ => rfl, nofun⟩, hrest⟩
  next qm rate hl =>
    obtain ⟨-, hlo, hhi⟩ := mcsLookup_legal hl
    have hrate : (fieldOf 12 rate).toNat = rate := toNat_fieldOf (by simp only at hhi; omega)
    exact ⟨⟨nofun, fun _ => .inr (by simpa [hrate] using ⟨hlo, hhi⟩)⟩, hrest⟩

/-- R145: MOD_FROM_MCS writes 0 or a legal order. -/
theorem resInv_modResult (op : OpArgs) {r : ResRegs} (h : resInv r = true) :
    resInv (modResult (opLookup op) r) = true := by
  rw [resInv_iff] at h ⊢
  obtain ⟨hrate, -, hrest⟩ := h
  unfold modResult
  split
  next => exact ⟨hrate, .inl rfl, hrest⟩
  next qm rate hl =>
    obtain ⟨hqm, -⟩ := mcsLookup_legal hl
    have hfield : (fieldOf 4 qm).toNat = qm := toNat_fieldOf (by have := qmLegal_le hqm; simp only at this; omega)
    exact ⟨hrate, .inr (by rw [hfield]; exact hqm), hrest⟩

/-! ## Counts and sizes (R148 to R151) -/

theorem nrePerPrb_le (p : Pattern) : nrePerPrb p ≤ p.symL * 12 := by
  have hsum := List.sum_le_card_nsmul ((spanOf p).map fun l => (dataScs p l).length) 12 fun n hn => by
    obtain ⟨l, -, rfl⟩ := List.mem_map.mp hn
    simpa [dataScs] using List.length_filter_le (fun sc => !excl p l sc) (List.range 12)
  simpa [nrePerPrb, spanOf] using hsum

theorem nreEff_le_nreAvail (p : Pattern) : nreEff p ≤ nreAvail p := Nat.mul_le_mul_left _ (Nat.min_le_right _ _)

/-- R148: the counts of a span inside a slot fit their 20 bits. -/
theorem nreAvail_lt {p : Pattern} (h : p.symL ≤ 14) : nreAvail p < 2 ^ 20 := by
  calc nreAvail p ≤ 288 * (14 * 12) :=
        Nat.mul_le_mul (nPrb_le p.prbMask) ((nrePerPrb_le p).trans (Nat.mul_le_mul_right 12 h))
    _ < 2 ^ 20 := by decide

/-- R149: SLOT_NRE writes an effective count that is at most the available one. -/
theorem resInv_slotNre {p : Pattern} {r : ResRegs} (hspan : p.symL ≤ 14) (h : resInv r = true) :
    resInv { r with nre := fieldOf 20 (nreEff p), nreAvail := fieldOf 20 (nreAvail p) } = true := by
  rw [resInv_iff] at h ⊢
  obtain ⟨hrate, hqm, htbs, -⟩ := h
  have havail := nreAvail_lt hspan
  refine ⟨hrate, hqm, htbs, ?_⟩
  simp only [toNat_fieldOf havail, toNat_fieldOf ((nreEff_le_nreAvail p).trans_lt havail), nreEff_le_nreAvail]

theorem quantTable_mod (v : Nat) : quantTable v % 8 = 0 := by
  have hentries : ∀ e ∈ quantEntries, e % 8 = 0 := by decide
  unfold quantTable
  cases h : quantEntries.find? fun e => decide (v ≤ e) with
  | none => rfl
  | some e => exact hentries e (List.mem_of_find?_eq_some h)

/-- R152: a transport-block size is a multiple of 8. -/
theorem tbsOf_mod {nre sden r qm nu t : Nat} (h : tbsOf nre sden r qm nu = some t) : t % 8 = 0 := by
  simp only [tbsOf] at h
  split at h
  · cases h
  split at h <;> cases h
  · exact quantTable_mod _
  · simp only [tbsLarge, Nat.mul_assoc 8]
    omega

theorem fieldOf_mod {v : Nat} (h : v % 8 = 0) : (fieldOf 32 v).toNat % 8 = 0 := by
  rw [fieldOf, BitVec.toNat_ofNat]
  omega

theorem resInv_tbs {r : ResRegs} {v : Word} (hv : v.toNat % 8 = 0) (h : resInv r = true) :
    resInv { r with tbs := v } = true := by
  rw [resInv_iff] at h ⊢
  obtain ⟨hrate, hqm, -, hnre⟩ := h
  exact ⟨hrate, hqm, hv, hnre⟩

/-! ## Commands -/

/-- From s to t, RES_* stay among the values their commands write. -/
def ResKept (s t : State) : Prop := resInv s.res = true → resInv t.res = true

theorem execSlotNre_resKept (s : State) : ∃ r, execSlotNre s = finish r ∧ ResKept s (endState r) := by
  refine ⟨_, rfl, endState_orRaise id fun x hx => ?_⟩
  obtain ⟨-, -, hspan, -, rfl⟩ := slotNre_ok hx
  exact resInv_slotNre (p := patternOf s.recs) (by omega)

theorem execTbs_resKept (s : State) : ∃ r, execTbs s = finish r ∧ ResKept s (endState r) := by
  refine ⟨_, rfl, endState_orRaise id fun _ _ => ?_⟩
  split
  next => exact resInv_tbs rfl
  next t ht => exact resInv_tbs (fieldOf_mod (tbsOf_mod ht))

/-- R44: the four commands that write RES_*. -/
theorem resWriters_kept {i : Instr} (hi : i ∈ [Instr.rateFromMcs, .modFromMcs, .slotNre, .tbs]) (s : State) :
    ∃ r, exec i s = finish r ∧ ResKept s (endState r) := by
  simp only [List.mem_cons, List.not_mem_nil, or_false] at hi
  obtain rfl | rfl | rfl | rfl := hi
  · exact ⟨_, rfl, resInv_rateResult s.args.op⟩
  · exact ⟨_, rfl, resInv_modResult s.args.op⟩
  · exact execSlotNre_resKept s
  · exact execTbs_resKept s

theorem exec_resKept {i : Instr} {s t : State} (h : exec i s = .next t) : ResKept s t := by
  by_cases hi : i ∈ [Instr.rateFromMcs, .modFromMcs, .slotNre, .tbs]
  · obtain ⟨r, hr, hk⟩ := resWriters_kept hi s
    obtain rfl := (finish_next_iff r t).mp (hr ▸ h)
    obtain ⟨-, -, hres, -⟩ := finishState_fields r
    rwa [ResKept, hres]
  · rw [ResKept, (exec_frame h).res hi]
    exact id

theorem rxInv_iff (r : RxRegs) :
    rxInv r = true ↔
      r.cw1 = RxCw.zero ∧ (r.cw0.valid = true ∨ (r.cw0 = RxCw.zero ∧ r.evmValid = false)) ∧
        (r.evmValid = true ∨ r.cw0.evm = 0) ∧ r.cw0.len.toNat ≤ maxTbsBits := by
  simp [rxInv, and_assoc]

/-- R254: the decode result of an enabled codeword. -/
theorem rxInv_decodeResult {s : State} (htbs : s.recs.tb0.tbs.toNat ≤ maxTbsBits) (xh : List (List Sample)) (ok : Bool) :
    rxInv (decodeResult s xh ok) = true := by
  rw [rxInv_iff]
  refine ⟨rfl, .inl rfl, ?_, htbs⟩
  cases h : s.pipe.evmEn with
  | true => exact .inl h
  | false => exact .inr (if_neg (by simp [h]))

/-- R254: the decode result with no codeword. -/
theorem rxInv_decodeNoCodeword (s : State) : rxInv (decodeNoCodeword s) = true := by
  rw [rxInv_iff]
  exact ⟨rfl, .inr ⟨rfl, rfl⟩, .inr rfl, Nat.zero_le _⟩

/-- From s to t, RX_* stay among the values DECODE writes. -/
def RxKept (s t : State) : Prop := rxInv s.rx = true → rxInv t.rx = true

theorem decodeRule_rxKept (s : State) : RxKept s (endState (decodeRule s)) := by
  obtain ⟨e, h⟩ | h | ⟨_, xh, bits, ok, -, htbs, -, h⟩ := decodeRule_cases s <;> rw [h]
  · exact id
  · exact fun _ => rxInv_decodeNoCodeword s
  · exact fun _ => rxInv_decodeResult htbs xh ok

theorem exec_rxKept {i : Instr} {s t : State} (h : exec i s = .next t) : RxKept s t := by
  by_cases hi : i = .decode
  · subst hi
    obtain rfl := (finish_next_iff (decodeRule s) t).mp h
    obtain ⟨-, -, -, hrx, -⟩ := finishState_fields (decodeRule s)
    rw [RxKept, hrx]
    exact decodeRule_rxKept s
  · rw [RxKept, (exec_frame h).rx hi]
    exact id

/-- Settles O28: the writers of each group by their values, every other turn by its frame. -/
theorem stepKeepsResultRegisters : Obligations.StepKeepsResultRegisters := by
  intro s t hres hrx h
  cases step_cases h with
  | reset => exact ⟨(by decide : resInv State.reset.res = true), (by decide : rxInv State.reset.rx = true)⟩
  | idle | reserved => exact ⟨hres, hrx⟩
  | command _ _ _ ht => exact ⟨exec_resKept (s := turnGone s) ht hres, exec_rxKept (s := turnGone s) ht hrx⟩
  | @busyHost x =>
    obtain ⟨-, -, hr, hx, -⟩ := busyAccess_frame x (turnGone s)
    rw [hr, hx]
    exact ⟨hres, hrx⟩
  | @idleHost x =>
    obtain ⟨hr, hx, -⟩ := idleAccess_frame x (turnGone s)
    rw [hr, hx]
    exact ⟨hres, hrx⟩

end Sys2Proof.ResultSteps

/-! SUPPORT. The lifecycles of the two units over a step (R64, R221 to R224, R270 to R272): nothing goes back but by PIPE_FREE
and reset. -/

namespace Sys2Proof.UnitLifecycles

open Sys2Proof.Machine Sys2Proof.Config Sys2Proof.Claims Sys2Proof.StepCases Sys2Proof.CommandFrames Sys2Proof.HostFrames

/-- R221: from p to q no capacity decreases and the lifecycle does not go back. -/
structure PipeForward (p q : PipeRegs) : Prop where
  capPrb : p.capPrb.toNat ≤ q.capPrb.toNat
  capLayers : p.capLayers.toNat ≤ q.capLayers.toNat
  capCw : p.capCw.toNat ≤ q.capCw.toNat
  carrierSet : p.state = .carrierSet → q.state = .carrierSet
  ready : p.state = .ready → q.state = .ready ∨ q.state = .carrierSet
  partialInit : p.state = .partialInit → q.state = .partialInit

/-- R270: from a to b no capacity decreases, and neither the carrier nor the CORESET is lost. -/
structure SaForward (a b : SaRegs) : Prop where
  capPrb : a.capPrb.toNat ≤ b.capPrb.toNat
  capPorts : a.capPorts.toNat ≤ b.capPorts.toNat
  carrierSet : a.state = .carrierSet → b.state = .carrierSet
  csValid : a.csValid = true → b.csValid = true

theorem PipeForward.of_eq {p q : PipeRegs} (h : q = p) : PipeForward p q :=
  h ▸ ⟨le_rfl, le_rfl, le_rfl, id, .inl, id⟩

theorem SaForward.of_eq {a b : SaRegs} (h : b = a) : SaForward a b := h ▸ ⟨le_rfl, le_rfl, id, id⟩

/-! ## The PIPE (R222, R223) -/

/-- R222: an initialisation goes on from UNINIT only. -/
theorem uninit_of_pipeInitLines {s : State} {x : Unit} (h : guardLines 0 (pipeInitLines s) = .ok x) :
    s.pipe.state = .uninit := by
  rw [guardLines_ok_iff, firstFailing_none_iff] at h
  simpa using h _ (List.mem_cons_self ..)

/-- R223: a carrier is set in READY or CARRIER_SET only. -/
theorem initialised_of_pipeSetCarrierLines {s : State} {x : Unit} (h : guardLines 0 (pipeSetCarrierLines s) = .ok x) :
    s.pipe.state = .ready ∨ s.pipe.state = .carrierSet := by
  rw [guardLines_ok_iff, firstFailing_none_iff] at h
  have hstate := h _ (List.mem_cons_self ..)
  cases hs : s.pipe.state <;> simp [hs] at hstate ⊢

/-- From UNINIT, where a PIPE in order has no capacity, every PIPE is a step forward. -/
theorem pipeForward_of_uninit {p q : PipeRegs} (hinv : pipeInv p = true) (h : p.state = .uninit) : PipeForward p q := by
  rw [((pipeInv_iff p).mp hinv).1 h]
  exact ⟨Nat.zero_le _, Nat.zero_le _, Nat.zero_le _, nofun, nofun, nofun⟩

theorem pipeInitRule_forward (role : Role) {s : State} (hinv : pipeInv s.pipe = true) :
    PipeForward s.pipe (endState (pipeInitRule role s)).pipe :=
  endState_orRaise (P := fun t => PipeForward s.pipe t.pipe) (.of_eq rfl) fun _ hx =>
    pipeForward_of_uninit hinv (uninit_of_pipeInitLines hx)

/-- R223: a carrier latched with a capacity that has not shrunk. -/
theorem pipeWithCarrier_forward {s : State} {capPrb : BitVec 9} (hcap : s.pipe.capPrb.toNat ≤ capPrb.toNat)
    (hstate : s.pipe.state = .ready ∨ s.pipe.state = .carrierSet) : PipeForward s.pipe (pipeWithCarrier capPrb s) := by
  refine ⟨hcap, le_rfl, le_rfl, fun _ => rfl, fun _ => .inr rfl, fun h => ?_⟩
  obtain hs | hs := hstate <;> rw [hs] at h <;> cases h

theorem execPipeSetCarrier_forward (s : State) :
    ∃ r, execPipeSetCarrier s = finish r ∧ PipeForward s.pipe (endState r).pipe := by
  refine ⟨_, rfl, endState_orRaise (P := fun t => PipeForward s.pipe t.pipe) (.of_eq rfl) fun _ hx => ?_⟩
  have hstate := initialised_of_pipeSetCarrierLines hx
  split
  case isTrue hgrow =>
    split
    · exact pipeWithCarrier_forward hgrow.le hstate
    · exact .of_eq rfl
  case isFalse => exact pipeWithCarrier_forward le_rfl hstate

/-- R222, R223: the commands other than PIPE_FREE that write the PIPE registers. -/
theorem pipeWriters_forward {i : Instr} (hi : i ∈ [Instr.pipeInitTx, .pipeInitRx, .pipeSetCarrier]) {s : State}
    (hinv : pipeInv s.pipe = true) : ∃ r, exec i s = finish r ∧ PipeForward s.pipe (endState r).pipe := by
  simp only [List.mem_cons, List.not_mem_nil, or_false] at hi
  obtain rfl | rfl | rfl := hi
  · exact ⟨_, rfl, pipeInitRule_forward .transmitter hinv⟩
  · exact ⟨_, rfl, pipeInitRule_forward .receiver hinv⟩
  · exact execPipeSetCarrier_forward s

/-- R221: every command but PIPE_FREE moves the PIPE forward. -/
theorem exec_pipeForward {i : Instr} {s t : State} (hinv : pipeInv s.pipe = true) (hfree : i ≠ .pipeFree)
    (h : exec i s = .next t) : PipeForward s.pipe t.pipe := by
  by_cases hi : i ∈ [Instr.pipeInitTx, .pipeInitRx, .pipeSetCarrier]
  · obtain ⟨r, hr, hforward⟩ := pipeWriters_forward hi hinv
    obtain rfl := (finish_next_iff r t).mp (hr ▸ h)
    obtain ⟨-, -, -, -, hpipe, -⟩ := finishState_fields r
    exact hpipe ▸ hforward
  · exact .of_eq ((exec_frame h).pipe (by simpa [hfree] using hi))

/-! ## The SA (R271, R272) -/

theorem le_maxBits {n : Nat} (a b : BitVec n) : b.toNat ≤ (maxBits a b).toNat := by
  unfold maxBits
  split <;> omega

/-- R271: a carrier latched with capacities that have not shrunk. -/
theorem saWithCarrier_forward {s : State} {capPrb : BitVec 9} {capPorts : BitVec 3}
    (hprb : s.sa.capPrb.toNat ≤ capPrb.toNat) (hports : s.sa.capPorts.toNat ≤ capPorts.toNat) :
    SaForward s.sa (saWithCarrier capPrb capPorts s) := ⟨hprb, hports, fun _ => rfl, id⟩

theorem execSaSetCarrier_forward (s : State) :
    ∃ r, execSaSetCarrier s = finish r ∧ SaForward s.sa (endState r).sa := by
  refine ⟨_, rfl, endState_orRaise (P := fun t => SaForward s.sa t.sa) (.of_eq rfl) fun _ _ => ?_⟩
  dsimp only
  split
  · split
    · exact saWithCarrier_forward (le_maxBits _ _) (le_maxBits _ _)
    · exact .of_eq rfl
  · exact saWithCarrier_forward le_rfl le_rfl

theorem execSaSetCoreset_forward (s : State) :
    ∃ r, execSaSetCoreset s = finish r ∧ SaForward s.sa (endState r).sa :=
  ⟨_, rfl, endState_orRaise (P := fun t => SaForward s.sa t.sa) (.of_eq rfl) fun _ _ => ⟨le_rfl, le_rfl, id, fun _ => rfl⟩⟩

/-- R270: every command moves the SA forward. -/
theorem exec_saForward {i : Instr} {s t : State} (h : exec i s = .next t) : SaForward s.sa t.sa := by
  by_cases hi : i ∈ [Instr.saSetCarrier, .saSetCoreset]
  · have hwriter : ∃ r, exec i s = finish r ∧ SaForward s.sa (endState r).sa := by
      simp only [List.mem_cons, List.not_mem_nil, or_false] at hi
      obtain rfl | rfl := hi
      · exact execSaSetCarrier_forward s
      · exact execSaSetCoreset_forward s
    obtain ⟨r, hr, hforward⟩ := hwriter
    obtain rfl := (finish_next_iff r t).mp (hr ▸ h)
    obtain ⟨-, -, -, -, -, hsa, -⟩ := finishState_fields r
    exact hsa ▸ hforward
  · exact .of_eq ((exec_frame h).sa hi)

/-! ## Every step -/

/-- R221, R270: over a step that is no reset the SA moves forward, and the PIPE too unless PIPE_FREE runs. -/
theorem step_forward {s t : State} (hinv : unitsInv s = true) (h : step s = .next t)
    (hreset : s.env.schedule.head? ≠ some .reset) :
    SaForward s.sa t.sa ∧ (¬ Runs .pipeFree s → PipeForward s.pipe t.pipe) := by
  have hpipe := ((unitsInv_iff s).mp hinv).1
  cases step_cases h with
  | reset hturn => exact absurd hturn hreset
  | idle | reserved => exact ⟨.of_eq rfl, fun _ => .of_eq rfl⟩
  | command hx hb hi ht =>
    refine ⟨exec_saForward (s := turnGone s) ht, fun hfree => exec_pipeForward (s := turnGone s) hpipe ?_ ht⟩
    rintro rfl
    exact hfree ⟨hx, hb, hi⟩
  | @busyHost x =>
    obtain ⟨-, -, -, -, hp, hs, -⟩ := busyAccess_frame x (turnGone s)
    exact ⟨.of_eq hs, fun _ => .of_eq hp⟩
  | @idleHost x =>
    obtain ⟨-, -, hp, hs⟩ := idleAccess_frame x (turnGone s)
    exact ⟨.of_eq hs, fun _ => .of_eq hp⟩

/-- Settles O21: the parts of `step_forward`. -/
theorem unitsGoBackOnlyByFreeOrReset : Obligations.UnitsGoBackOnlyByFreeOrReset := by
  intro s t hinv h hreset
  obtain ⟨⟨hprb, hports, hset, hcs⟩, hpipe⟩ := step_forward hinv h hreset
  refine ⟨hprb, hports, hset, hcs, fun hfree => ?_⟩
  obtain ⟨hp, hl, hc, hcarrier, hready, hpartial⟩ := hpipe hfree
  exact ⟨hp, hl, hc, hcarrier, hready, hpartial⟩

end Sys2Proof.UnitLifecycles

/-! SUPPORT. The slot buffer over a step (R70, R71, R81): no defined element lies outside the grid of SA_CAR. Each command
that writes the slot buffer makes only writes inside the grid, whatever its collaborators answer. -/

namespace Sys2Proof.SlotGrid

open Sys2Proof.Machine Sys2Proof.Config Sys2Proof.Claims Sys2Proof.StepCases Sys2Proof.CommandFrames
open Sys2Proof.MemoryOrder (mem_memWrite encodeAfterFec_same encodeAfterSeq_same)

/-! ## The grid of a carrier (R70, R71) -/

/-- R70: every defined element of a slot buffer lies in the grid of the carrier. -/
def InGrid (c : Carrier) (t : Vector (Mem Sample) 4) : Prop :=
  ∀ a (h : a < 4), ∀ e ∈ t[a], a < c.nports.toNat ∧ e.1 < gridSize c

theorem slotInGrid_iff (s : State) : slotInGrid s = true ↔ InGrid s.sa.car s.mem.slotbuf := by
  simp only [slotInGrid, InGrid, List.all_eq_true, List.mem_range, Bool.and_eq_true, decide_eq_true_eq]
  refine forall₂_congr fun a ha => ?_
  rw [Vector.getElem?_eq_getElem ha, Option.getD_some]

theorem inGrid_undefined (c : Carrier) : InGrid c (Vector.replicate 4 []) := by
  intro a ha e he
  simp at he

theorem InGrid.bankWrite {c : Carrier} {t : Vector (Mem Sample) 4} (h : InGrid c t) {a addr : Nat} (v : Sample)
    (ha : a < c.nports.toNat) (haddr : addr < gridSize c) : InGrid c (bankWrite t a addr v) := by
  intro b hb e he
  rw [Machine.bankWrite, Vector.getElem_setIfInBounds] at he
  split at he
  case isFalse => exact h b hb e he
  case isTrue hab =>
    subst hab
    rw [Vector.getElem?_eq_getElem hb, Option.getD_some] at he
    obtain rfl | he := mem_memWrite he
    · exact ⟨ha, haddr⟩
    · exact h a hb e he

/-- R71: the write names an antenna, a symbol and a subcarrier of the carrier. -/
def WriteInGrid (c : Carrier) (w : SlotWrite) : Prop :=
  w.a < c.nports.toNat ∧ w.l < nsymb c.cp ∧ w.k < 12 * c.nprb.toNat

theorem gridAddr_lt_gridSize {c : Carrier} {l k : Nat} (hl : l < nsymb c.cp) (hk : k < 12 * c.nprb.toNat) :
    gridAddr c.nprb.toNat l k < gridSize c :=
  calc l * (12 * c.nprb.toNat) + k
    _ < (l + 1) * (12 * c.nprb.toNat) := (Nat.add_lt_add_left hk _).trans_eq (Nat.succ_mul l _).symm
    _ ≤ nsymb c.cp * (12 * c.nprb.toNat) := Nat.mul_le_mul_right _ hl

theorem InGrid.slotWriteAll {c : Carrier} {t : Vector (Mem Sample) 4} (h : InGrid c t) {ws : List SlotWrite}
    (hws : ∀ w ∈ ws, WriteInGrid c w) : InGrid c (slotWriteAll c.nprb.toNat t ws) := by
  induction ws generalizing t with
  | nil => exact h
  | cons w ws ih =>
    obtain ⟨ha, hl, hk⟩ := hws w List.mem_cons_self
    exact ih (h.bankWrite w.v ha (gridAddr_lt_gridSize hl hk)) fun x hx => hws x (List.mem_cons_of_mem _ hx)

/-! ## A rule that keeps the grid -/

/-- From s to t the SA is the same, and no element outside its grid has become defined. -/
structure GridKept (s t : State) : Prop where
  sa : t.sa = s.sa
  slot : InGrid s.sa.car s.mem.slotbuf → InGrid t.sa.car t.mem.slotbuf

theorem GridKept.refl (s : State) : GridKept s s := ⟨rfl, id⟩

theorem GridKept.trans {s t u : State} (h : GridKept s t) (k : GridKept t u) : GridKept s u :=
  ⟨k.sa.trans h.sa, k.slot ∘ h.slot⟩

theorem GridKept.of_env {s t : State} (h : SameButEnv s t) : GridKept s t := by
  obtain ⟨e, rfl⟩ := h
  exact ⟨rfl, id⟩

theorem gridKept_slotUndefined (s : State) : GridKept s (slotUndefined s) := ⟨rfl, fun _ => inGrid_undefined _⟩

/-- Writes placed after calls that touch the environment alone. -/
theorem GridKept.putSlot {s t : State} (h : SameButEnv s t) {ws : List SlotWrite}
    (hws : ∀ w ∈ ws, WriteInGrid s.sa.car w) : GridKept s (putSlot ws t) := by
  obtain ⟨e, rfl⟩ := h
  exact ⟨rfl, fun hg => hg.slotWriteAll hws⟩

/-! ## The writes of a grant (R225, R228, R242, R277) -/

theorem groupSc_lt {ty : Bool} {g sc : Nat} (h : sc ∈ groupSc ty g) : sc < 12 := by
  unfold groupSc at h
  split at h <;> simp at h <;> omega

/-- R225: where the checks of a transmission pass, its layers, its span and its resource blocks fit the carrier of the SA. -/
theorem grant_fits {step : BitVec 4} {s : State} (h : checkGrant step .transmitter s = .ok ()) :
    popcount s.recs.gr.ports = s.recs.gr.nlayers.toNat ∧ s.recs.gr.nlayers.toNat ≤ s.sa.car.nports.toNat ∧
      (∀ l ∈ spanOf (patternOf s.recs), l < nsymb s.sa.car.cp) ∧
      ∀ n ∈ prbSet (patternOf s.recs).prbMask, n < s.sa.car.nprb.toNat := by
  obtain ⟨-, -, -, -, hsa, hprb, -, -, -, hspan, -, hports, -, -, hlayers, -, -⟩ := checkGrant_ok h
  obtain ⟨-, hcar⟩ := hsa rfl
  rw [hcar]
  refine ⟨hports, hlayers, fun l hl => ?_, fun n hn => (hprb n hn).2⟩
  have := ((mem_spanOf _ l).mp hl).2
  simp only [patternOf] at this
  omega

/-- R242: ENCODE writes inside the grid, whatever bits the collaborators answer. -/
theorem encodeWrites_inGrid {step : BitVec 4} {s : State} (h : checkGrant step .transmitter s = .ok ()) (b c : List Bool) :
    ∀ w ∈ encodeWrites num s.recs b c, WriteInGrid s.sa.car w := by
  obtain ⟨-, hlayers, hspan, hprb⟩ := grant_fits h
  intro w hw
  obtain ⟨lam, hlam, hw⟩ := List.mem_flatMap.mp hw
  rw [layerWrites, ← List.map_uncurry_zip_eq_zipWith] at hw
  obtain ⟨⟨⟨l, k⟩, v⟩, hlk, rfl⟩ := List.mem_map.mp hw
  obtain ⟨hl, hn, -⟩ := (mem_posList _ l k).mp (List.of_mem_zip hlk).1
  have hk : k < 12 * s.sa.car.nprb.toNat := by
    have := hprb _ hn
    omega
  exact ⟨(List.mem_range.mp hlam).trans_le hlayers, hspan l ((mem_spanOf _ l).mpr hl), hk⟩

/-- R277: the DMRS positions of a grant lie in the grid. -/
theorem grantDmrs_inGrid {step : BitVec 4} {s : State} (h : checkGrant step .transmitter s = .ok ())
    {q : Nat × Nat × Nat × Nat} (hq : q ∈ grantDmrs s) :
    q.1 < s.sa.car.nports.toNat ∧ q.2.2.1 < nsymb s.sa.car.cp ∧ q.2.2.2 < 12 * s.sa.car.nprb.toNat := by
  obtain ⟨hports, hlayers, hspan, hprb⟩ := grant_fits h
  simp only [grantDmrs, dmrsPositions, List.mem_flatMap, List.mem_map, List.mem_filter] at hq
  obtain ⟨pj, hpj, l, ⟨hl, -⟩, n, hn, sc, hsc, rfl⟩ := hq
  have hj : pj.2 < popcount s.recs.gr.ports := List.snd_lt_of_mem_zipIdx hpj
  have hblock := hprb n hn
  have hoff := groupSc_lt hsc
  exact ⟨hj.trans_le (hports ▸ hlayers), hspan l hl, by simp only; omega⟩

theorem dmrsWrites_inGrid {step : BitVec 4} {s : State} (h : checkGrant step .transmitter s = .ok ()) (v : List Sample) :
    ∀ w ∈ dmrsWrites (grantDmrs s) v, WriteInGrid s.sa.car w := by
  intro w hw
  rw [dmrsWrites, ← List.map_uncurry_zip_eq_zipWith] at hw
  obtain ⟨⟨q, x⟩, hqx, rfl⟩ := List.mem_map.mp hw
  exact grantDmrs_inGrid h (List.of_mem_zip hqx).1

/-! ## The writes of BASE_ZERO and PDCCH_PUT (R273 to R275) -/

theorem baseZeroWrites_inGrid (c : Carrier) : ∀ w ∈ baseZeroWrites num c, WriteInGrid c w := by
  intro w hw
  simp only [baseZeroWrites, zeroWrites, List.mem_flatMap, List.mem_map, List.mem_range] at hw
  obtain ⟨a, ha, l, hl, k, hk, rfl⟩ := hw
  exact ⟨ha, hl, hk⟩

/-- R275: a position of the control region lies in the grid: a CORESET has at most three symbols. -/
theorem inCoreset_inGrid {cs : Coreset} {c : Carrier} {l k : Nat} (h : inCoreset cs c l k = true) :
    l < nsymb c.cp ∧ k < 12 * c.nprb.toNat := by
  simp only [inCoreset, Bool.and_eq_true, decide_eq_true_eq] at h
  obtain ⟨⟨hl, hk⟩, -⟩ := h
  have hdur := cs.dur.isLt
  have hsymb : 12 ≤ nsymb c.cp := by cases c.cp <;> decide
  exact ⟨by omega, hk⟩

/-- R274: a list that lies in the control region, written on antenna 0 of a carrier with a port. -/
theorem pdcchWrites_inGrid {s : State} (hport : 1 ≤ s.sa.car.nports.toNat) {w : List (Nat × Nat × Sample)}
    (h : allInCoreset s w = true) : ∀ x ∈ pdcchWrites w, WriteInGrid s.sa.car x := by
  intro x hx
  obtain ⟨e, he, rfl⟩ := List.mem_map.mp hx
  exact ⟨hport, inCoreset_inGrid (List.all_eq_true.mp h e he)⟩

/-- R26, R271: an SA in order that has a carrier has a port. -/
theorem one_le_nports {a : SaRegs} (hinv : saInv a = true) (h : a.state ≠ .noCarrier) : 1 ≤ a.car.nports.toNat := by
  have hset : a.state = .carrierSet := by cases hs : a.state <;> simp_all
  obtain ⟨hvalid, -⟩ := ((saInv_iff a).mp hinv).2.1 hset
  obtain ⟨-, -, -, hport, -⟩ := (carrierValid_iff a.car).mp hvalid
  exact hport

/-! ## Commands -/

theorem encodeRule_gridKept (step : BitVec 4) (s : State) : GridKept s (endState (encodeRule step s)) := by
  refine endState_orRaise (.refl s) fun _ hgrant => ?_
  split
  case isFalse => exact .refl s
  case isTrue =>
    refine endState_orRaise (.refl s) fun _ _ => ?_
    unfold encodeBody
    split
    · exact .of_env (encodeAfterFec_same s)
    · split
      · exact .of_env (encodeAfterSeq_same s)
      · exact .putSlot (encodeAfterSeq_same s) (encodeWrites_inGrid hgrant _ _)

theorem execBaseZero_gridKept (s : State) : ∃ r, execBaseZero s = finish r ∧ GridKept s (endState r) :=
  ⟨_, rfl, endState_orRaise (.refl s) fun _ _ => .putSlot ⟨s.env, rfl⟩ (baseZeroWrites_inGrid s.sa.car)⟩

theorem pdcchPlace_gridKept (step : BitVec 4) (ans : Option (List (Nat × Nat × Sample))) {s : State}
    (hport : 1 ≤ s.sa.car.nports.toNat) : GridKept s (endState (pdcchPlace step ans s)) := by
  obtain ⟨-, h⟩ | ⟨w, -, ⟨hw, h⟩ | ⟨-, h⟩⟩ := pdcchPlace_cases step ans s <;> rw [h]
  · exact .refl s
  · exact .putSlot (.refl s) (pdcchWrites_inGrid hport hw)
  · exact .refl s

theorem execPdcchPut_gridKept {s : State} (hinv : saInv s.sa = true) :
    ∃ r, execPdcchPut s = finish r ∧ GridKept s (endState r) := by
  refine ⟨_, rfl, endState_orRaise (.refl s) fun _ hlines => ?_⟩
  have hport : 1 ≤ s.sa.car.nports.toNat := by
    rw [guardLines_ok_iff, firstFailing_none_iff] at hlines
    have hstate := hlines _ List.mem_cons_self
    simp only [Bool.or_eq_false_iff, beq_eq_false_iff_ne] at hstate
    exact one_le_nports hinv hstate.1
  have hcall (q : Answers) (e : CollabEvent) (t : State) : GridKept t (recordCall q e t) :=
    .of_env (sameButEnv_recordCall q e t)
  exact endState_andThen ((hcall _ _ s).trans (pdcchPlace_gridKept 1 _ hport)) fun t ht =>
    ht.trans ((hcall _ _ t).trans (pdcchPlace_gridKept 2 _ (ht.sa ▸ hport)))

theorem pdschStep1_gridKept (s : State) : GridKept s (endState (pdschStep1 s)) := by
  have hcall : SameButEnv s (dmrsCalled s) := sameButEnv_recordCall _ _ _
  refine endState_orRaise (.refl s) fun _ hgrant => ?_
  split
  · exact .of_env hcall
  · exact .putSlot hcall (dmrsWrites_inGrid hgrant _)

theorem genAntennas_gridKept (antennas : List Nat) (s : State) : GridKept s (endState (genAntennas antennas s)) := by
  obtain ⟨⟨-, -, -, -, -, hsa⟩, -, hmem⟩ := genAntennas_frame antennas s
  exact ⟨hsa, fun _ => hmem ▸ inGrid_undefined _⟩

/-- R271: with a new carrier every element is undefined; without one the SA and the slot buffer stay. -/
theorem execSaSetCarrier_inGrid {s : State} (h : InGrid s.sa.car s.mem.slotbuf) :
    ∃ r, execSaSetCarrier s = finish r ∧ InGrid (endState r).sa.car (endState r).mem.slotbuf := by
  refine ⟨_, rfl, endState_orRaise (P := fun t => InGrid t.sa.car t.mem.slotbuf) h fun _ _ => ?_⟩
  dsimp only
  split
  · split
    · exact inGrid_undefined _
    · exact h
  · exact inGrid_undefined _

/-- R272: a latched CORESET leaves the carrier and the slot buffer. -/
theorem execSaSetCoreset_inGrid {s : State} (h : InGrid s.sa.car s.mem.slotbuf) :
    ∃ r, execSaSetCoreset s = finish r ∧ InGrid (endState r).sa.car (endState r).mem.slotbuf :=
  ⟨_, rfl, endState_orRaise (P := fun t => InGrid t.sa.car t.mem.slotbuf) h fun _ _ => h⟩

/-- R81: the commands that write the SA or the slot buffer define no element outside the grid. -/
theorem slotWriters_inGrid {i : Instr}
    (hi : i ∈ [Instr.saSetCarrier, .saSetCoreset, .encode, .baseZero, .pdcchPut, .pdschPut, .genSignal]) {s : State}
    (hinv : saInv s.sa = true) (h : InGrid s.sa.car s.mem.slotbuf) :
    ∃ r, exec i s = finish r ∧ InGrid (endState r).sa.car (endState r).mem.slotbuf := by
  have of_kept (hk : ∃ r, exec i s = finish r ∧ GridKept s (endState r)) :
      ∃ r, exec i s = finish r ∧ InGrid (endState r).sa.car (endState r).mem.slotbuf :=
    hk.imp fun _ ⟨hr, hk⟩ => ⟨hr, hk.slot h⟩
  simp only [List.mem_cons, List.not_mem_nil, or_false] at hi
  obtain rfl | rfl | rfl | rfl | rfl | rfl | rfl := hi
  · exact execSaSetCarrier_inGrid h
  · exact execSaSetCoreset_inGrid h
  · exact of_kept ⟨_, rfl, encodeRule_gridKept 0 s⟩
  · exact of_kept (execBaseZero_gridKept s)
  · exact of_kept (execPdcchPut_gridKept hinv)
  · exact of_kept ⟨_, rfl, endState_andThen (pdschStep1_gridKept s) fun t ht => ht.trans (encodeRule_gridKept 2 t)⟩
  · exact of_kept ⟨_, rfl, endState_orRaise (.refl s) fun _ _ => genAntennas_gridKept _ s⟩

/-- R81: every command keeps the slot buffer in the grid: a writer by its writes, any other by its frame. -/
theorem exec_inGrid {i : Instr} {s t : State} (hinv : saInv s.sa = true) (hg : InGrid s.sa.car s.mem.slotbuf)
    (h : exec i s = .next t) : InGrid t.sa.car t.mem.slotbuf := by
  by_cases hi : i ∈ [Instr.saSetCarrier, .saSetCoreset, .encode, .baseZero, .pdcchPut, .pdschPut, .genSignal]
  · obtain ⟨r, hr, hk⟩ := slotWriters_inGrid hi hinv hg
    obtain rfl := (finish_next_iff r t).mp (hr ▸ h)
    obtain ⟨-, -, -, -, -, hsa, hmem, -⟩ := finishState_fields r
    rwa [hsa, hmem]
  · have hf := exec_frame h
    simp only [List.mem_cons, List.not_mem_nil, or_false, not_or] at hi
    rw [hf.sa (by simp [hi]), hf.slotbuf (by simp [hi])]
    exact hg

/-! ## The host -/

/-- R70, R75: a Sample the host writes in range lies in the grid. -/
theorem sampleWrite_inGrid {sp : SampleSpace} {addr : Nat} (v : Sample) {s : State} (haddr : addr < sampleElems sp s)
    (h : InGrid s.sa.car s.mem.slotbuf) : InGrid s.sa.car (sampleWrite sp addr v s).mem.slotbuf := by
  cases sp with
  | rxbuf a => exact h
  | slotbuf a =>
    simp only [sampleElems] at haddr
    split at haddr
    case isTrue ha => exact h.bankWrite v ha haddr
    case isFalse => exact absurd haddr (Nat.not_lt_zero addr)

theorem idleAccess_inGrid (x : HostAccess) {s : State} (h : InGrid s.sa.car s.mem.slotbuf) :
    InGrid s.sa.car (idleAccess x s).mem.slotbuf := by
  cases x with
  | regRead | readSample | readBits | readCe | writeCe => exact h
  | regWrite a v =>
    rw [idleAccess, hostWrite]
    split
    · exact h
    · rwa [RegisterStorage.regStore_args_recs]
  | writeSample sp addr v =>
    rw [idleAccess]
    obtain ⟨haddr, hw⟩ | ⟨-, hw⟩ := ifInSpace_cases addr (sampleElems sp s) (sampleWrite sp addr v s) s <;> rw [hw]
    · exact sampleWrite_inGrid v haddr h
    · exact h
  | writeBits sp addr v =>
    rw [idleAccess]
    obtain ⟨-, hw⟩ | ⟨-, hw⟩ := ifInSpace_cases addr bitWords (wordWrite sp addr v s) s <;> rw [hw]
    · cases sp <;> exact h
    · exact h

/-! ## Every step -/

/-- R81: every step keeps the slot buffer in the grid of SA_CAR. -/
theorem step_inGrid {s t : State} (hinv : saInv s.sa = true) (hg : InGrid s.sa.car s.mem.slotbuf) (h : step s = .next t) :
    InGrid t.sa.car t.mem.slotbuf := by
  cases step_cases h with
  | reset => exact inGrid_undefined _
  | idle | reserved => exact hg
  | command _ _ _ ht => exact exec_inGrid (s := turnGone s) hinv hg ht
  | @busyHost x =>
    obtain ⟨-, -, -, -, -, hsa, hmem, -⟩ := busyAccess_frame x (turnGone s)
    rw [hsa, hmem]
    exact hg
  | @idleHost x =>
    obtain ⟨-, -, -, hsa⟩ := HostFrames.idleAccess_frame x (turnGone s)
    rw [hsa]
    exact idleAccess_inGrid x (s := turnGone s) hg

/-- Settles O26: the parts of `step_inGrid`, with the SA's half of the unit invariant. -/
theorem stepKeepsSlotInGrid : Obligations.StepKeepsSlotInGrid := by
  intro s t hunits hg h
  rw [slotInGrid_iff] at hg ⊢
  exact step_inGrid ((unitsInv_iff s).mp hunits).2 hg h

end Sys2Proof.SlotGrid

/-! SUPPORT. The host's bulk port to an idle block (R61 to R63, R70 to R75): what a read finds after a write, element by
element and bit by bit. -/

namespace Sys2Proof.BulkPort

open Sys2Proof.Machine Sys2Proof.Config Sys2Proof.Claims

theorem hostAccess_idle (x : HostAccess) {s : State} (hb : s.sys.busy = false) :
    hostAccess x s = .next (idleAccess x s) := by
  rw [hostAccess_next, hb]
  rfl

/-- R75: a value handed to the host, some draws of the port used. -/
theorem readOnly_deliver (d : ReadData) (n : Nat) (s : State) : ReadOnly s (deliver d (portDrawn n s)) := rfl

/-! ## Samples and CE elements (R70, R71, R73) -/

/-- R70: a write defines its own element and no other, of SLOTBUF and RXBUF. -/
theorem sampleRead_sampleWrite (sp sp' : SampleSpace) (addr addr' : Nat) (v : Sample) (s : State) :
    sampleRead sp' addr' (sampleWrite sp addr v s) =
      if sp' = sp ∧ addr' = addr then some v else sampleRead sp' addr' s := by
  cases sp with
  | slotbuf a =>
    cases sp' with
    | slotbuf a' => simp [sampleRead, sampleWrite, bankRead_bankWrite, Fin.val_inj]
    | rxbuf a' => simp [sampleRead, sampleWrite]
  | rxbuf a =>
    cases sp' with
    | slotbuf a' => simp [sampleRead, sampleWrite]
    | rxbuf a' => simp [sampleRead, sampleWrite, bankRead_bankWrite, Fin.val_inj]

theorem sampleWrite_frame (sp : SampleSpace) (addr : Nat) (v : Sample) (s : State) :
    sampleWrite sp addr v s = { s with mem := { s.mem with
      slotbuf := (sampleWrite sp addr v s).mem.slotbuf, rxbuf := (sampleWrite sp addr v s).mem.rxbuf } } := by
  cases sp <;> rfl

/-- R75, U15: a read of a Sample while idle, in range or refused, hands over some value and changes nothing else. -/
theorem readSample_idle (sp : SampleSpace) (addr : Nat) {s : State} (hb : s.sys.busy = false) :
    ∃ t y, hostAccess (.readSample sp addr) s = .next t ∧ ReadOnly s t ∧ t.env.readData = some (.sample y) ∧
      (addr < sampleElems sp s → ∀ x, sampleRead sp addr s = some x → y = x) := by
  refine ⟨_, _, hostAccess_idle _ hb, readOnly_deliver _ _ s, rfl, fun h x hx => ?_⟩
  rw [inSpace_of_lt h, hx, Option.getD_some]

/-- R75, U15: a write of a Sample while idle is made in range and refused beyond. -/
theorem writeSample_idle (sp : SampleSpace) (addr : Nat) (v : Sample) {s : State} (hb : s.sys.busy = false) :
    hostAccess (.writeSample sp addr v) s = .next (if addr < sampleElems sp s then sampleWrite sp addr v s else s) :=
  hostAccess_idle _ hb

/-- Settles O16: Samples by range, then CE, where every address is in range (log 15). -/
theorem hostMovesOneSample : Obligations.HostMovesOneSample := by
  refine ⟨fun sp addr v s hb => ?_, fun addr v s hb => ⟨?_, ?_⟩⟩
  · obtain ⟨t, y, hread, honly, hdata, hvalue⟩ := readSample_idle sp addr hb
    have hwrite := writeSample_idle sp addr v hb
    split
    case isTrue hin =>
      rw [if_pos hin] at hwrite
      exact ⟨⟨_, hwrite, sampleWrite_frame sp addr v s, fun sp' addr' => sampleRead_sampleWrite sp sp' addr addr' v s⟩,
        t, y, hread, honly, hdata, hvalue hin⟩
    case isFalse hout =>
      rw [if_neg hout] at hwrite
      exact ⟨hwrite, t, y, hread, honly, hdata⟩
  · exact ⟨_, hostAccess_idle _ hb, rfl, fun a => memRead_memWrite s.mem.ce addr a v⟩
  · refine ⟨_, _, hostAccess_idle _ hb, readOnly_deliver _ _ s, rfl, fun x hx => ?_⟩
    rw [hx, Option.getD_some]

/-! ## Bit arrays (R72) -/

/-- A list that gives an address one value only, and gives it, leaves that value there. -/
theorem lastWrite_eq_some {α : Type} {ws : List (Nat × α)} {a : Nat} {x : α} (hmem : (a, x) ∈ ws)
    (huniq : ∀ w ∈ ws, w.1 = a → w.2 = x) : lastWrite ws a = some x := by
  rw [lastWrite, Option.map_eq_some_iff]
  cases hf : ws.reverse.find? fun w => w.1 == a with
  | none => simpa using List.find?_eq_none.mp hf (a, x) (List.mem_reverse.mpr hmem)
  | some w =>
    have haddr : w.1 = a := by simpa using List.find?_some hf
    exact ⟨w, rfl, huniq w (List.mem_reverse.mp (List.mem_of_find?_eq_some hf)) haddr⟩

/-- A list that names an address nowhere leaves it. -/
theorem lastWrite_eq_none {α : Type} {ws : List (Nat × α)} {a : Nat} (h : ∀ w ∈ ws, w.1 ≠ a) :
    lastWrite ws a = none := by
  rw [lastWrite, Option.map_eq_none_iff, List.find?_eq_none]
  intro w hw
  simpa using h w (List.mem_reverse.mp hw)

theorem mem_wordBits {addr : Nat} {v : Word} {w : Nat × Bool} :
    w ∈ wordBits addr v ↔ w.1 / 32 = addr ∧ w.2 = v.getLsbD (w.1 % 32) := by
  obtain ⟨i, b⟩ := w
  simp only [wordBits, List.mem_map, List.mem_range, Prod.mk.injEq]
  constructor
  · rintro ⟨j, hj, rfl, rfl⟩
    exact ⟨by omega, by rw [Nat.mul_add_mod, Nat.mod_eq_of_lt hj]⟩
  · rintro ⟨haddr, rfl⟩
    exact ⟨i % 32, Nat.mod_lt _ (by decide), by omega, rfl⟩

/-- R72: bit i stands in word i div 32, at position i mod 32. -/
theorem memRead_wordBits (m : Mem Bool) (addr : Nat) (v : Word) (i : Nat) :
    memRead (memWriteAll m (wordBits addr v)) i = if i / 32 = addr then some (v.getLsbD (i % 32)) else memRead m i := by
  rw [memRead_memWriteAll]
  split
  case isTrue haddr =>
    have hmem : (i, v.getLsbD (i % 32)) ∈ wordBits addr v := mem_wordBits.mpr ⟨haddr, rfl⟩
    rw [lastWrite_eq_some hmem ?_, Option.some_or]
    rintro w hw rfl
    exact (mem_wordBits.mp hw).2
  case isFalse haddr =>
    rw [lastWrite_eq_none ?_, Option.none_or]
    rintro w hw rfl
    exact haddr (mem_wordBits.mp hw).1

/-- R72: the same for one array of a family. -/
theorem memRead_set_wordBits (t : Vector (Mem Bool) 2) (c c' : Fin 2) (addr : Nat) (v : Word) (i : Nat) :
    memRead (t.set c (memWriteAll t[c] (wordBits addr v)))[c'] i =
      if c' = c ∧ i / 32 = addr then some (v.getLsbD (i % 32)) else memRead t[c'] i := by
  by_cases hc : c' = c
  · subst hc
    simp [memRead_wordBits]
  · have hne : (c : Nat) ≠ c' := fun h => hc (Fin.ext h.symm)
    simp [hc, Vector.getElem_set_ne _ _ hne]

/-- R72: a word write sets the bits of its own word and no other, of any bit array. -/
theorem memRead_bitArray_wordWrite (sp sp' : BitSpace) (addr : Nat) (v : Word) (s : State) (i : Nat) :
    memRead (bitArray sp' (wordWrite sp addr v s)) i =
      if sp' = sp ∧ i / 32 = addr then some (v.getLsbD (i % 32)) else memRead (bitArray sp' s) i := by
  cases sp with
  | payload c =>
    cases sp' with
    | payload c' => simpa [bitArray, wordWrite] using memRead_set_wordBits s.mem.payload c c' addr v i
    | rxpayload c' => simp [bitArray, wordWrite]
  | rxpayload c =>
    cases sp' with
    | payload c' => simp [bitArray, wordWrite]
    | rxpayload c' => simpa [bitArray, wordWrite] using memRead_set_wordBits s.mem.rxpayload c c' addr v i

theorem wordWrite_frame (sp : BitSpace) (addr : Nat) (v : Word) (s : State) :
    wordWrite sp addr v s = { s with mem := { s.mem with
      payload := (wordWrite sp addr v s).mem.payload, rxpayload := (wordWrite sp addr v s).mem.rxpayload } } := by
  cases sp <;> rfl

/-- R72: a word whose bits are all defined reads as those bits. -/
theorem wordRead_eq {m : Mem Bool} {addr : Nat} {v : Word} (d : Nat)
    (h : ∀ i < 32, memRead m (32 * addr + i) = some (v.getLsbD i)) : wordRead m d addr = v := by
  refine BitVec.eq_of_getLsbD_eq fun i hi => ?_
  rw [wordRead, getLsbD_bitsOf, h i hi]
  simp [hi]

/-- R72: a written word reads back. -/
theorem wordRead_wordWrite (sp : BitSpace) (addr : Nat) (v : Word) (s : State) (d : Nat) :
    wordRead (bitArray sp (wordWrite sp addr v s)) d addr = v := by
  refine wordRead_eq d fun i hi => ?_
  rw [memRead_bitArray_wordWrite, if_pos ⟨rfl, by omega⟩, Nat.mul_add_mod, Nat.mod_eq_of_lt hi]

/-- R75, U15: a word write while idle is made in range and refused beyond. -/
theorem writeBits_idle (sp : BitSpace) (addr : Nat) (v : Word) {s : State} (hb : s.sys.busy = false) :
    hostAccess (.writeBits sp addr v) s = .next (if addr < bitWords then wordWrite sp addr v s else s) :=
  hostAccess_idle _ hb

/-- R75, U15: a word read while idle, in range or refused, hands over some word and changes nothing else. -/
theorem readBits_idle (sp : BitSpace) (addr : Nat) {s : State} (hb : s.sys.busy = false) :
    ∃ t y, hostAccess (.readBits sp addr) s = .next t ∧ ReadOnly s t ∧ t.env.readData = some (.word y) ∧
      (addr < bitWords → y = wordRead (bitArray sp s) s.env.portDraws addr) := by
  refine ⟨_, _, hostAccess_idle _ hb, readOnly_deliver _ _ s, rfl, fun h => ?_⟩
  rw [inSpace_of_lt h, Option.getD_some]

/-- Settles O17: in range the write and the read of its word, beyond the last of the 2^21 / 32 words nothing. -/
theorem bitArrayWordsPackFirstBitLow : Obligations.BitArrayWordsPackFirstBitLow := by
  intro sp addr v s hb
  have hwords : bitWords = 65536 := rfl
  have hwrite := writeBits_idle sp addr v hb
  rw [hwords] at hwrite
  split
  case isTrue hin =>
    rw [if_pos hin] at hwrite
    have hidle : (wordWrite sp addr v s).sys.busy = false := by rw [wordWrite_frame]; exact hb
    obtain ⟨u, y, hread, honly, hdata, hvalue⟩ := readBits_idle sp addr hidle
    rw [hvalue hin, wordRead_wordWrite] at hdata
    exact ⟨_, u, hwrite, fun sp' i => memRead_bitArray_wordWrite sp sp' addr v s i, wordWrite_frame sp addr v s, hread,
      honly, hdata⟩
  case isFalse hout =>
    rw [if_neg hout] at hwrite
    obtain ⟨t, y, hread, honly, hdata, -⟩ := readBits_idle sp addr hb
    exact ⟨hwrite, t, y, hread, honly, hdata⟩

end Sys2Proof.BulkPort

/-! SUPPORT. The Resource Allocation Engine is pure (R96, R140): the argument registers and the records decide the effect of
each of its commands. -/

namespace Sys2Proof.RaePurity

open Sys2Proof.Machine Sys2Proof.Claims

/-! ## Effects on records and results -/

/-- What a command of the engine can do. -/
structure Effect where
  /-- The error raised, if one is. -/
  error : Option Raised
  /-- The records after the command. -/
  recs : Records
  /-- The update of RES_*. -/
  res : ResRegs → ResRegs

/-- A rule that ends with the effect. -/
def Effect.ended (f : Effect) (s : State) : CmdEnd :=
  match f.error with
  | none => .done { s with recs := f.recs, res := f.res s.res }
  | some e => .raised e { s with recs := f.recs, res := f.res s.res }

/-- R140: an effect touches neither memory nor environment, and writes the records it names. -/
theorem finishState_ended (f : Effect) (s : State) :
    (finishState (f.ended s)).mem = s.mem ∧ (finishState (f.ended s)).env = s.env ∧
      (finishState (f.ended s)).recs = f.recs ∧ (finishState (f.ended s)).res = f.res s.res := by
  unfold Effect.ended
  split <;> exact ⟨rfl, rfl, rfl, rfl⟩

/-- R318: one effect on two states with equal error records leaves equal error records. -/
theorem finishState_ended_errors (f : Effect) {s s' : State} (herr : s.sys.err = s'.sys.err)
    (hclass : s.sys.errClass = s'.sys.errClass) (hcode : s.sys.errCode = s'.sys.errCode)
    (hstep : s.sys.errStep = s'.sys.errStep) :
    (finishState (f.ended s)).sys.err = (finishState (f.ended s')).sys.err ∧
      (finishState (f.ended s)).sys.errClass = (finishState (f.ended s')).sys.errClass ∧
      (finishState (f.ended s)).sys.errCode = (finishState (f.ended s')).sys.errCode ∧
      (finishState (f.ended s)).sys.errStep = (finishState (f.ended s')).sys.errStep := by
  unfold Effect.ended
  split
  · exact ⟨herr, hclass, hcode, hstep⟩
  · exact ⟨rfl, rfl, rfl, rfl⟩

/-! ## Rules decided by their operands -/

/-- In every state with argument registers a and records r the rule ends with one and the same effect. -/
def OperandsDecide (a : ArgRegs) (r : Records) (rule : State → CmdEnd) : Prop :=
  ∃ f : Effect, ∀ s, s.args = a → s.recs = r → rule s = f.ended s

section
variable {a : ArgRegs} {r : Records}

/-- R316: a computation on the operands decides whether the rest of the rule runs. -/
theorem operandsDecide_orRaise {α : Type} (x : ArgRegs → Records → Except Raised α) {k : α → State → CmdEnd}
    (hk : ∀ y, OperandsDecide a r (k y)) : OperandsDecide a r fun s => orRaise (x s.args s.recs) s fun y => k y s := by
  cases hx : x a r with
  | ok y =>
    obtain ⟨f, hf⟩ := hk y
    refine ⟨f, ?_⟩
    rintro s rfl rfl
    simp only [hx, orRaise_ok]
    exact hf s rfl rfl
  | error e =>
    refine ⟨{ error := some e, recs := r, res := id }, ?_⟩
    rintro s rfl rfl
    simp only [hx, orRaise_error]
    rfl

/-- R163: DCI2GRANT writes the new records, or invalidates the old ones. -/
theorem operandsDecide_dci2GrantRule (dir : Bool) : OperandsDecide a r (dci2GrantRule dir) := by
  cases hg : dci2Grant dir a with
  | ok g =>
    refine ⟨{ error := none, recs := g, res := id }, ?_⟩
    rintro s rfl rfl
    rw [dci2GrantRule, hg]
    rfl
  | error e =>
    refine ⟨{ error := some e, recs := grantInvalidated r, res := id }, ?_⟩
    rintro s rfl rfl
    rw [dci2GrantRule, hg]
    rfl

/-- R151: TBS writes the size, or 0 with the error where there is none. -/
theorem execTbs_decided : ∃ rule, (∀ s, execTbs s = finish (rule s)) ∧ OperandsDecide a r rule := by
  refine ⟨_, fun _ => rfl,
    operandsDecide_orRaise (fun a _ => guardLines 0 [(tbsOperandsIllegal a.op, .iiEnum)]) fun _ => ?_⟩
  cases ht : opTbs a.op with
  | none =>
    refine ⟨{ error := some { code := .ciTbs, step := 0 }, recs := r, res := fun x => { x with tbs := 0 } }, ?_⟩
    rintro s rfl rfl
    simp only [ht]
    rfl
  | some t =>
    refine ⟨{ error := none, recs := r, res := fun x => { x with tbs := fieldOf 32 t } }, ?_⟩
    rintro s rfl rfl
    simp only [ht]
    rfl

/-- R96: each command of the engine completes a rule that its operands decide. -/
theorem exec_rae {i : Instr} (h : isRae i = true) :
    ∃ rule, (∀ s, exec i s = finish (rule s)) ∧ OperandsDecide a r rule := by
  cases i with
  | rateFromMcs =>
    refine ⟨_, fun _ => rfl, { error := none, recs := r, res := rateResult (opLookup a.op) }, ?_⟩
    rintro s rfl rfl
    rfl
  | modFromMcs =>
    refine ⟨_, fun _ => rfl, { error := none, recs := r, res := modResult (opLookup a.op) }, ?_⟩
    rintro s rfl rfl
    rfl
  | slotNre =>
    refine ⟨_, fun _ => rfl, operandsDecide_orRaise (fun _ r => slotNre 0 (patternOf r)) fun c => ?_⟩
    refine ⟨{ error := none, recs := r,
              res := fun x => { x with nre := fieldOf 20 c.1, nreAvail := fieldOf 20 c.2 } }, ?_⟩
    rintro s - rfl
    rfl
  | tbs => exact execTbs_decided
  | fillTb0 =>
    refine ⟨_, fun _ => rfl, operandsDecide_orRaise (fun a r => fillTb r a.op.mcs) fun f => ?_⟩
    refine ⟨{ error := none, recs := { r with tb0 := fillCommit f a.op.mcs r.tb0 }, res := id }, ?_⟩
    rintro s rfl rfl
    rfl
  | fillTb1 =>
    refine ⟨_, fun _ => rfl, { error := some { code := .ucCw1, step := 0 }, recs := r, res := id }, ?_⟩
    rintro s - rfl
    rfl
  | dci2GrantDl => exact ⟨_, fun _ => rfl, operandsDecide_dci2GrantRule false⟩
  | dci2GrantUl => exact ⟨_, fun _ => rfl, operandsDecide_dci2GrantRule true⟩
  | _ => cases h

end

/-- Settles O23: equal operands name one effect, which both states end in. -/
theorem raeIsPure : Obligations.RaeIsPure := by
  intro i s s' hi hargs hrecs
  obtain ⟨rule, hexec, f, hf⟩ := exec_rae (a := s'.args) (r := s'.recs) hi
  have hs : exec i s = finish (f.ended s) := (hexec s).trans (congrArg finish (hf s hargs hrecs))
  have hs' : exec i s' = finish (f.ended s') := (hexec s').trans (congrArg finish (hf s' rfl rfl))
  obtain ⟨hmem, henv, hr, hres⟩ := finishState_ended f s
  obtain ⟨-, -, hr', hres'⟩ := finishState_ended f s'
  refine ⟨_, _, hs, hs', hmem, henv, hr.trans hr'.symm, fun h => ?_, finishState_ended_errors f⟩
  rw [hres, hres', h]

end Sys2Proof.RaePurity

/-! SUPPORT. Command words (R100 to R106): decode and encode are inverse to each other, the words that are well formed are
those of the table's rows, and a reserved word in flight completes without executing anything (R102, R318). -/

namespace Sys2Proof.CommandWords

open Sys2Proof.Machine Sys2Proof.Claims Sys2Proof.Laws Sys2Proof.StepCases

/-! ## Decode and encode (R104, R106) -/

/-- R102, R104: the law of command words, for every row of the table. -/
theorem wordWellFormed : ∀ i : Instr, WordWellFormed.Statement i
  | .rateFromMcs => WordWellFormed.rateFromMcs
  | .modFromMcs => WordWellFormed.modFromMcs
  | .slotNre => WordWellFormed.slotNre
  | .tbs => WordWellFormed.tbs
  | .fillTb0 => WordWellFormed.fillTb0
  | .fillTb1 => WordWellFormed.fillTb1
  | .dci2GrantDl => WordWellFormed.dci2GrantDl
  | .dci2GrantUl => WordWellFormed.dci2GrantUl
  | .pipeInitTx => WordWellFormed.pipeInitTx
  | .pipeInitRx => WordWellFormed.pipeInitRx
  | .pipeSetCarrier => WordWellFormed.pipeSetCarrier
  | .pipeFree => WordWellFormed.pipeFree
  | .encode => WordWellFormed.encode
  | .decode => WordWellFormed.decode
  | .saSetCarrier => WordWellFormed.saSetCarrier
  | .saSetCoreset => WordWellFormed.saSetCoreset
  | .baseZero => WordWellFormed.baseZero
  | .pdcchPut => WordWellFormed.pdcchPut
  | .pdschPut => WordWellFormed.pdschPut
  | .genSignal => WordWellFormed.genSignal

theorem encodeFields_wellFormed (i : Instr) : (encodeFields i).wellFormed = true := (wordWellFormed i).1

theorem fieldsOf_encode (i : Instr) : fieldsOf (encode i) = encodeFields i := (wordWellFormed i).2

/-- R104: a row of the table is found by its own opcode and modifier. -/
theorem rowOf_encodeFields (i : Instr) : rowOf (encodeFields i).opc.toNat (encodeFields i).m.toNat = .ok i := by
  cases i <;> rfl

theorem decode_encode (i : Instr) : decode (encode i) = .ok i := by
  simp only [Sys2Proof.decode, fieldsOf_encode, encodeFields_zero, if_pos, rowOf_encodeFields]

/-- Settles O5: no other word decodes to a command, and the command's own word does. -/
theorem decodeAndEncodeAgree : Obligations.DecodeAndEncodeAgree := by
  refine fun w i => ⟨eq_encode_of_decode, ?_⟩
  rintro rfl
  exact decode_encode i

/-- Settles O4: each word is the word of its row. -/
theorem tableWordsDecode : Obligations.TableWordsDecode :=
  ⟨decode_encode .rateFromMcs, decode_encode .fillTb1, decode_encode .dci2GrantUl, decode_encode .pipeInitRx,
    decode_encode .encode, decode_encode .pdschPut, decode_encode .genSignal⟩

/-! ## Well-formed words (R102) -/

/-- R104: each of the 17 opcodes has a row with M = 0. -/
theorem rowOf_knownOpcode : ∀ opc ∈ knownOpcodes, (rowOf opc.toNat 0).isOk = true := by decide

/-- R101, R104: each opcode that takes a modifier has a row with M = 1. -/
theorem rowOf_modifiedOpcode : ∀ opc ∈ modifiedOpcodes, (rowOf opc.toNat 1).isOk = true := by decide

/-- R102: the three checks on the fields. -/
theorem wellFormed_iff (c : CommandWord) :
    c.wellFormed = true ↔ c.zero = 0 ∧ c.opc ∈ knownOpcodes ∧ (c.m = 1 → c.opc ∈ modifiedOpcodes) := by
  have hm : c.m = 0 ↔ ¬ c.m = 1 := by
    obtain hm | hm := BitVec.eq_zero_or_eq_one c.m <;> simp [hm]
  simp only [CommandWord.wellFormed, CommandWord.zeroOk, CommandWord.opcodeOk, CommandWord.modifierOk, Bool.and_eq_true,
    Bool.or_eq_true, beq_iff_eq, List.contains_iff_mem, hm, imp_iff_not_or, and_assoc]

/-- R102, R104: well-formed fields select a row. -/
theorem rowOf_of_wellFormed {c : CommandWord} (h : c.wellFormed = true) : ∃ i, rowOf c.opc.toNat c.m.toNat = .ok i := by
  obtain ⟨-, hopc, hmod⟩ := (wellFormed_iff c).mp h
  have hok : (rowOf c.opc.toNat c.m.toNat).isOk = true := by
    obtain hm | hm := BitVec.eq_zero_or_eq_one c.m
    · rw [hm]
      exact rowOf_knownOpcode c.opc hopc
    · rw [hm]
      exact rowOf_modifiedOpcode c.opc (hmod hm)
  cases hrow : rowOf c.opc.toNat c.m.toNat with
  | ok i => exact ⟨i, rfl⟩
  | error e => simp [hrow, Except.isOk, Except.toBool] at hok

/-- R102, R104: the words of the table's rows are the well-formed ones. -/
theorem exists_eq_encode_iff (w : Word) : (∃ i, w = encode i) ↔ (fieldsOf w).wellFormed = true := by
  constructor
  · rintro ⟨i, rfl⟩
    rw [fieldsOf_encode]
    exact encodeFields_wellFormed i
  · intro h
    obtain ⟨i, hi⟩ := rowOf_of_wellFormed h
    obtain ⟨hzero, -⟩ := (wellFormed_iff _).mp h
    exact ⟨i, eq_encode_of_decode (by rw [Sys2Proof.decode, if_pos hzero, hi])⟩

/-- One bit is 1 exactly when it is set. -/
theorem eq_one_iff_getLsbD_zero (m : BitVec 1) : m = 1 ↔ m.getLsbD 0 = true := by
  revert m
  decide

/-- R100: the modifier of a word is its bit 8. -/
theorem fieldsOf_m_eq_one_iff (w : Word) : (fieldsOf w).m = 1 ↔ w.getLsbD 8 = true := by
  rw [eq_one_iff_getLsbD_zero, fieldsOf]
  simp

/-! ## A reserved word in flight (R102, R318) -/

/-- R318: an error entry and completion are the failure of its class, code and step. -/
theorem finish_raised (e : Raised) (s : State) :
    finish (.raised e s) = .next (failed (errClassNum e.code) (errCodeNum e.code) e.step s) := rfl

/-- R102: a word in flight that is no command's completes as a reserved word. -/
theorem executorTurn_reserved {s : State} (hb : s.sys.busy = true) (hw : ∀ i, s.sys.cmd ≠ encode i) :
    executorTurn s = reservedWord s := by
  rw [executorTurn, if_pos hb]
  split
  next i hi => exact absurd (eq_encode_of_decode hi) (hw i)
  next => rfl

/-- Settles O8: the three checks on the word's own bits, and the executor's turn on a word that is no command's. -/
theorem reservedWordExecutesNothing : Obligations.ReservedWordExecutesNothing := by
  constructor
  · intro w
    rw [exists_eq_encode_iff, wellFormed_iff, fieldsOf_m_eq_one_iff]
    rfl
  · intro s hx hb hw
    rw [step_eq_executorTurn hx, executorTurn_reserved (s := turnGone s) hb hw]
    exact finish_raised _ _

end Sys2Proof.CommandWords

/-! SUPPORT. The transport-block size (R150, R152, R198): the quantisation table, rounding to steps that are powers of two,
the two branches as functions of one argument each, and the laws of the size as a whole. -/

namespace Sys2Proof.TransportBlockSize

open Sys2Proof.Machine Sys2Proof.Claims

/-! ## Integer helpers (R12) -/

theorem cdiv_isCeilDiv (a : Nat) {b : Nat} (hb : 0 < b) : IsCeilDiv a b (cdiv a b) := by
  have hle : b * ((a + b - 1) / b) ≤ a + b - 1 := Nat.mul_div_le _ _
  have hlt : a + b - 1 < b * ((a + b - 1) / b + 1) := Nat.lt_mul_div_succ _ hb
  rw [Nat.mul_add_one] at hlt
  unfold cdiv
  constructor <;> omega

theorem cdiv_le_iff {a b k : Nat} (hb : 0 < b) : cdiv a b ≤ k ↔ a ≤ b * k := by
  obtain ⟨hle, hlt⟩ := cdiv_isCeilDiv a hb
  constructor <;> intro h
  · exact hle.trans (Nat.mul_le_mul_left b h)
  · exact Nat.lt_add_one_iff.mp (Nat.lt_of_mul_lt_mul_left (a := b) (by rw [Nat.mul_add_one]; omega))

theorem ilog2_isLog {x : Nat} (h : x ≠ 0) : IsLog x (ilog2 x) := ⟨Nat.log2_self_le h, Nat.lt_log2_self⟩

theorem ilog2_mono {x y : Nat} (h : x ≤ y) : ilog2 x ≤ ilog2 y := by
  rw [ilog2, ilog2, Nat.log2_eq_log_two, Nat.log2_eq_log_two]
  exact Nat.log_mono_right h

/-- Two numbers in order have the same logarithm, or a power of two stands between them. -/
theorem ilog2_eq_or_between {x y : Nat} (hx : x ≠ 0) (h : x ≤ y) :
    ilog2 x = ilog2 y ∨ (x < 2 ^ ilog2 y ∧ 2 ^ ilog2 y ≤ y) := by
  obtain ⟨hle, -⟩ := ilog2_isLog (x := y) (by omega)
  rcases Nat.lt_or_ge x (2 ^ ilog2 y) with hlt | hge
  · exact .inr ⟨hlt, hle⟩
  · exact .inl (le_antisymm (ilog2_mono h) ((Nat.le_log2 hx).mpr hge))

/-- The least multiple of m not less than x. -/
def roundUp (m x : Nat) : Nat := m * cdiv x m

theorem le_roundUp {m : Nat} (hm : 0 < m) (x : Nat) : x ≤ roundUp m x := (cdiv_isCeilDiv x hm).1

theorem roundUp_lt {m : Nat} (hm : 0 < m) (x : Nat) : roundUp m x < x + m := (cdiv_isCeilDiv x hm).2

theorem roundUp_le {m x y : Nat} (hm : 0 < m) (hdvd : m ∣ y) (h : x ≤ y) : roundUp m x ≤ y := by
  obtain ⟨k, rfl⟩ := hdvd
  exact Nat.mul_le_mul_left m ((cdiv_le_iff hm).mpr h)

theorem roundUp_mono {m x y : Nat} (hm : 0 < m) (h : x ≤ y) : roundUp m x ≤ roundUp m y :=
  roundUp_le hm (Nat.dvd_mul_right m _) (h.trans (le_roundUp hm y))

/-! ## The quantisation table (R197, R198) -/

/-- In an ascending list, the first entry not less than v is the smallest such entry. -/
theorem find_least {l : List Nat} (hl : l.Pairwise (· ≤ ·)) {v x : Nat} (h : (l.find? fun e => decide (v ≤ e)) = some x) :
    x ∈ l ∧ v ≤ x ∧ ∀ e ∈ l, v ≤ e → x ≤ e := by
  obtain ⟨hx, as, bs, rfl, has⟩ := List.find?_eq_some_iff_append.mp h
  obtain ⟨-, hbs, -⟩ := List.pairwise_append.mp hl
  refine ⟨by simp, of_decide_eq_true hx, fun e he hv => ?_⟩
  rcases List.mem_append.mp he with hea | heb
  · simpa [hv] using has e hea
  · rcases List.mem_cons.mp heb with rfl | heb
    · exact le_rfl
    · exact List.rel_of_pairwise_cons hbs heb

theorem quantTable_least {v : Nat} (h : v ≤ 3824) : LeastEntry v (quantTable v) := by
  have hsorted : quantEntries.Pairwise (· ≤ ·) := by decide
  have htop : 3824 ∈ quantEntries := by decide
  cases hf : quantEntries.find? fun e => decide (v ≤ e) with
  | none => exact absurd h (by simpa using List.find?_eq_none.mp hf 3824 htop)
  | some x =>
    have hx : quantTable v = x := by rw [quantTable, hf]; rfl
    exact hx ▸ find_least hsorted hf

theorem quantTable_le {v : Nat} (h : v ≤ 3824) : quantTable v ≤ 3824 :=
  (quantTable_least h).2.2 3824 (by decide) h

theorem quantTable_mono {v w : Nat} (h : v ≤ w) (hw : w ≤ 3824) : quantTable v ≤ quantTable w := by
  obtain ⟨hmem, hge, -⟩ := quantTable_least hw
  exact (quantTable_least (h.trans hw)).2.2 _ hmem (h.trans hge)

/-! ## The first branch (R150) -/

/-- The exponent of the first branch for q = P div D. -/
def smallExp (q : Nat) : Nat := if q = 0 then 3 else max 3 (ilog2 q - 6)

/-- q rounded down to a multiple of the first branch's step. -/
def smallInfo (q : Nat) : Nat := 2 ^ smallExp q * (q / 2 ^ smallExp q)

theorem tbsSmall_eq (p d : Nat) : tbsSmall p d = quantTable (max 24 (smallInfo (p / d))) := by
  rw [smallInfo, Nat.div_div_eq_div_mul]
  rfl

theorem smallInfo_le (q : Nat) : smallInfo q ≤ q := Nat.mul_div_le _ _

/-- Where the step grows, a power of two that is a multiple of the larger step stands between the arguments. -/
theorem smallInfo_mono {q q' : Nat} (h : q ≤ q') : smallInfo q ≤ smallInfo q' := by
  by_cases hexp : smallExp q = smallExp q'
  · rw [smallInfo, smallInfo, hexp]
    exact Nat.mul_le_mul_left _ (Nat.div_le_div_right h)
  by_cases hq : q = 0
  · subst hq
    exact (smallInfo_le 0).trans (Nat.zero_le _)
  have hq' : q' ≠ 0 := by omega
  simp only [smallExp, hq, hq', if_false] at hexp
  rcases ilog2_eq_or_between hq h with heq | ⟨hlt, hle⟩
  · exact absurd (by rw [heq]) hexp
  have hlog : ilog2 q ≤ ilog2 q' := ilog2_mono h
  have hexp' : smallExp q' ≤ ilog2 q' := by
    simp only [smallExp, hq', if_false]
    omega
  calc smallInfo q ≤ q := smallInfo_le q
    _ ≤ 2 ^ ilog2 q' := hlt.le
    _ = 2 ^ smallExp q' * (2 ^ ilog2 q' / 2 ^ smallExp q') := (Nat.mul_div_cancel' (Nat.pow_dvd_pow 2 hexp')).symm
    _ ≤ smallInfo q' := Nat.mul_le_mul_left _ (Nat.div_le_div_right hle)

/-- R150: up to the threshold, the quantised argument is one of the table's. -/
theorem smallInfo_le_threshold {p d : Nat} (h : p ≤ 3824 * d) : max 24 (smallInfo (p / d)) ≤ 3824 :=
  max_le (by decide) ((smallInfo_le _).trans (Nat.div_le_of_le_mul (by rwa [Nat.mul_comm])))

theorem tbsSmall_least {p d : Nat} (h : p ≤ 3824 * d) : LeastEntry (max 24 (smallInfo (p / d))) (tbsSmall p d) :=
  tbsSmall_eq p d ▸ quantTable_least (smallInfo_le_threshold h)

theorem tbsSmall_le {p d : Nat} (h : p ≤ 3824 * d) : tbsSmall p d ≤ 3824 :=
  tbsSmall_eq p d ▸ quantTable_le (smallInfo_le_threshold h)

theorem tbsSmall_mono {p p' d : Nat} (h : p ≤ p') (h' : p' ≤ 3824 * d) : tbsSmall p d ≤ tbsSmall p' d := by
  rw [tbsSmall_eq, tbsSmall_eq]
  exact quantTable_mono (max_le_max_left _ (smallInfo_mono (Nat.div_le_div_right h))) (smallInfo_le_threshold h')

theorem tbsSmall_smallSize {p d : Nat} (h : p ≤ 3824 * d) : SmallSize p d (tbsSmall p d) := by
  refine ⟨smallExp (p / d), ?_, by rw [← Nat.div_div_eq_div_mul]; exact tbsSmall_least h⟩
  by_cases hq : p / d = 0
  · exact .inl ⟨hq, if_pos hq⟩
  · exact .inr ⟨_, ilog2_isLog hq, if_neg hq⟩

/-! ## The second branch (R150): N'_info -/

/-- The exponent of the second branch for a = P − 24 D. -/
def largeExp (a d : Nat) : Nat := ilog2 (a / d) - 5

/-- a / D in steps of 2^n, rounded to the nearest, halves up. -/
def largeSteps (a d : Nat) : Nat := (2 * a + d * 2 ^ largeExp a d) / (2 * d * 2 ^ largeExp a d)

/-- N'_info before its lower bound. -/
def largeInfo (a d : Nat) : Nat := 2 ^ largeExp a d * largeSteps a d

theorem largeSteps_spec (a : Nat) {d : Nat} (hd : 0 < d) :
    2 * d * 2 ^ largeExp a d * largeSteps a d ≤ 2 * a + d * 2 ^ largeExp a d ∧
      2 * a + d * 2 ^ largeExp a d < 2 * d * 2 ^ largeExp a d * (largeSteps a d + 1) :=
  ⟨Nat.mul_div_le _ _, Nat.lt_mul_div_succ _ (by positivity)⟩

/-- In the second branch the logarithm is at least 5, so that the exponent is not cut off at 0. -/
theorem largeExp_isLog {a d : Nat} (hd : 0 < d) (h : 3800 * d ≤ a) : IsLog (a / d) (largeExp a d + 5) := by
  have hq : 3800 ≤ a / d := (Nat.le_div_iff_mul_le hd).mpr h
  have hlog : 5 ≤ ilog2 (a / d) := (Nat.le_log2 (by omega)).mpr (by omega)
  rw [largeExp, Nat.sub_add_cancel hlog]
  exact ilog2_isLog (by omega)

theorem largeStep_le {a d : Nat} (hd : 0 < d) (h : 3800 * d ≤ a) : d * 2 ^ largeExp a d ≤ a := by
  obtain ⟨hle, -⟩ := largeExp_isLog hd h
  calc d * 2 ^ largeExp a d ≤ d * 2 ^ (largeExp a d + 5) :=
        Nat.mul_le_mul_left d (Nat.pow_le_pow_right (by decide) (by omega))
    _ ≤ d * (a / d) := Nat.mul_le_mul_left d hle
    _ ≤ a := Nat.mul_div_le a d

/-- A multiple of the step that a does not reach bounds its rounding. -/
theorem largeInfo_le_of_lt {a d k : Nat} (hd : 0 < d) (h : a < d * (2 ^ largeExp a d * k)) :
    largeInfo a d ≤ 2 ^ largeExp a d * k := by
  obtain ⟨hle, -⟩ := largeSteps_spec a hd
  refine Nat.mul_le_mul_left _ (Nat.lt_add_one_iff.mp ?_)
  refine Nat.lt_of_mul_lt_mul_left (a := 2 * d * 2 ^ largeExp a d) (hle.trans_lt ?_)
  have hpos : 0 < d * 2 ^ largeExp a d := by positivity
  calc 2 * a + d * 2 ^ largeExp a d < 2 * (d * (2 ^ largeExp a d * k)) + 2 * (d * 2 ^ largeExp a d) := by omega
    _ = 2 * d * 2 ^ largeExp a d * (k + 1) := by ring

/-- A multiple of the step that a reaches is reached by its rounding. -/
theorem le_largeInfo_of_le {a d k : Nat} (hd : 0 < d) (h : d * (2 ^ largeExp a d * k) ≤ a) :
    2 ^ largeExp a d * k ≤ largeInfo a d := by
  obtain ⟨-, hlt⟩ := largeSteps_spec a hd
  refine Nat.mul_le_mul_left _ (Nat.lt_add_one_iff.mp ?_)
  refine Nat.lt_of_mul_lt_mul_left (a := 2 * d * 2 ^ largeExp a d) (lt_of_le_of_lt ?_ hlt)
  calc 2 * d * 2 ^ largeExp a d * k = 2 * (d * (2 ^ largeExp a d * k)) := by ring
    _ ≤ 2 * a + d * 2 ^ largeExp a d := by omega

/-- Where the step grows, a power of two that is a multiple of both steps stands between the arguments. -/
theorem largeInfo_mono {a a' d : Nat} (hd : 0 < d) (hlow : 3800 * d ≤ a) (h : a ≤ a') : largeInfo a d ≤ largeInfo a' d := by
  have hq : 3800 ≤ a / d := (Nat.le_div_iff_mul_le hd).mpr hlow
  rcases ilog2_eq_or_between (by omega) (Nat.div_le_div_right (c := d) h) with heq | ⟨hlt, hle⟩
  · have hexp : largeExp a d = largeExp a' d := by rw [largeExp, heq, largeExp]
    rw [largeInfo, largeInfo, largeSteps, largeSteps, hexp]
    gcongr
  have hpow : ∀ {n}, n ≤ ilog2 (a' / d) → 2 ^ n * 2 ^ (ilog2 (a' / d) - n) = 2 ^ ilog2 (a' / d) := fun hn => by
    rw [← pow_add, Nat.add_sub_cancel' hn]
  have hexp : largeExp a d ≤ ilog2 (a' / d) := by
    have hlog : ilog2 (a / d) ≤ ilog2 (a' / d) := ilog2_mono (Nat.div_le_div_right h)
    rw [largeExp]
    omega
  have hexp' : largeExp a' d ≤ ilog2 (a' / d) := Nat.sub_le _ _
  calc largeInfo a d ≤ 2 ^ largeExp a d * 2 ^ (ilog2 (a' / d) - largeExp a d) :=
        largeInfo_le_of_lt hd (by rw [hpow hexp, Nat.mul_comm]; exact (Nat.div_lt_iff_lt_mul hd).mp hlt)
    _ = 2 ^ largeExp a' d * 2 ^ (ilog2 (a' / d) - largeExp a' d) := by rw [hpow hexp, hpow hexp']
    _ ≤ largeInfo a' d :=
        le_largeInfo_of_le hd (by rw [hpow hexp', Nat.mul_comm]; exact (Nat.le_div_iff_mul_le hd).mp hle)

/-- N'_info exceeds N_info by less than one half. -/
theorem largeInfo_le {a d : Nat} (hd : 0 < d) (h : 3800 * d ≤ a) : 2 * (d * largeInfo a d) ≤ 3 * a := by
  obtain ⟨hle, -⟩ := largeSteps_spec a hd
  have hstep := largeStep_le hd h
  calc 2 * (d * largeInfo a d) = 2 * d * 2 ^ largeExp a d * largeSteps a d := by rw [largeInfo]; ring
    _ ≤ 3 * a := by omega

/-! ## The second branch (R150): code blocks -/

/-- C, the number of code blocks, for rate r and v = N'_info. -/
def codeBlocks (r v : Nat) : Nat :=
  if r ≤ 512 then cdiv (v + 24) 3816 else if 8424 < v then cdiv (v + 24) 8424 else 1

/-- The size for rate r and v = N'_info. -/
def blockSize (r v : Nat) : Nat := roundUp (8 * codeBlocks r v) (v + 24) - 24

theorem tbsLarge_eq (p d r : Nat) : tbsLarge p d r = blockSize r (max 3840 (largeInfo (p - 24 * d) d)) := rfl

theorem cdiv_pos {a b : Nat} (ha : 0 < a) (hb : 0 < b) : 0 < cdiv a b := by
  obtain ⟨hle, -⟩ := cdiv_isCeilDiv a hb
  exact Nat.pos_of_mul_pos_left (ha.trans_le hle)

theorem codeBlocks_pos (r v : Nat) : 0 < codeBlocks r v := by
  unfold codeBlocks
  split
  · exact cdiv_pos (by omega) (by decide)
  · split
    · exact cdiv_pos (by omega) (by decide)
    · decide

theorem codeBlocks_le (r v : Nat) : codeBlocks r v ≤ v + 24 := by
  unfold codeBlocks
  split
  · exact (cdiv_le_iff (by decide)).mpr (by omega)
  · split
    · exact (cdiv_le_iff (by decide)).mpr (by omega)
    · omega

/-- R150: C as its case requires. -/
theorem codeBlocks_spec (r v : Nat) :
    if r ≤ 512 then IsCeilDiv (v + 24) 3816 (codeBlocks r v)
    else if 8424 < v then IsCeilDiv (v + 24) 8424 (codeBlocks r v) else codeBlocks r v = 1 := by
  unfold codeBlocks
  by_cases hr : r ≤ 512
  · simp only [hr, if_true]
    exact cdiv_isCeilDiv _ (by decide)
  · by_cases hv : 8424 < v
    · simp only [hr, hv, if_true, if_false]
      exact cdiv_isCeilDiv _ (by decide)
    · simp only [hr, hv, if_false]

/-- The size with its 24 check bits is the least multiple of 8 C not below v + 24. -/
theorem blockSize_add (r v : Nat) : blockSize r v + 24 = roundUp (8 * codeBlocks r v) (v + 24) := by
  have := le_roundUp (m := 8 * codeBlocks r v) (by have := codeBlocks_pos r v; omega) (v + 24)
  rw [blockSize]
  omega

theorem le_blockSize (r v : Nat) : v ≤ blockSize r v := by
  have := le_roundUp (m := 8 * codeBlocks r v) (by have := codeBlocks_pos r v; omega) (v + 24)
  rw [blockSize]
  omega

theorem blockSize_lt (r v : Nat) : blockSize r v < v + 8 * codeBlocks r v := by
  have hlt := roundUp_lt (m := 8 * codeBlocks r v) (by have := codeBlocks_pos r v; omega) (v + 24)
  have := blockSize_add r v
  omega

/-- With a code-block length b that is a multiple of 8, a growing number of blocks leaves a multiple of 8 C in between. -/
theorem cdiv_eq_or_between {v w b : Nat} (hb : 0 < b) (h8 : 8 ∣ b) (h : v ≤ w) :
    cdiv v b = cdiv w b ∨ ∃ m, 8 * cdiv v b ∣ m ∧ v ≤ m ∧ m ≤ w := by
  rcases Nat.lt_or_ge (b * cdiv v b) w with hlt | hge
  · exact .inr ⟨_, Nat.mul_dvd_mul_right h8 _, (cdiv_isCeilDiv v hb).1, hlt.le⟩
  · exact .inl (le_antisymm ((cdiv_le_iff hb).mpr (h.trans (cdiv_isCeilDiv w hb).1)) ((cdiv_le_iff hb).mpr hge))

theorem codeBlocks_eq_or_between (r : Nat) {v w : Nat} (h : v ≤ w) :
    codeBlocks r v = codeBlocks r w ∨ ∃ m, 8 * codeBlocks r v ∣ m ∧ v + 24 ≤ m ∧ m ≤ w + 24 := by
  unfold codeBlocks
  by_cases hr : r ≤ 512
  · simp only [hr, if_true]
    exact cdiv_eq_or_between (by decide) (by decide) (by omega)
  simp only [hr, if_false]
  by_cases hv : 8424 < v
  · simp only [hv, hv.trans_le h, if_true]
    exact cdiv_eq_or_between (by decide) (by decide) (by omega)
  by_cases hw : 8424 < w
  · simp only [hv, if_false]
    exact .inr ⟨8448, by decide, by omega, by omega⟩
  · simp only [hv, hw, if_false]
    exact .inl trivial

theorem blockSize_mono (r : Nat) {v w : Nat} (h : v ≤ w) : blockSize r v ≤ blockSize r w := by
  have hpos : 0 < 8 * codeBlocks r v := by have := codeBlocks_pos r v; omega
  rcases codeBlocks_eq_or_between r h with heq | ⟨m, hdvd, hvm, hmw⟩
  · rw [blockSize, blockSize, ← heq]
    exact Nat.sub_le_sub_right (roundUp_mono hpos (by omega)) 24
  · have hv := roundUp_le hpos hdvd hvm
    have hw := le_blockSize r w
    have := blockSize_add r v
    omega

theorem le_tbsLarge (p d r : Nat) : 3840 ≤ tbsLarge p d r :=
  (le_max_left _ _).trans (le_blockSize r _)

theorem tbsLarge_mono {p p' d : Nat} (r : Nat) (hd : 0 < d) (hp : 3824 * d < p) (h : p ≤ p') :
    tbsLarge p d r ≤ tbsLarge p' d r := by
  rw [tbsLarge_eq, tbsLarge_eq]
  exact blockSize_mono r (max_le_max_left _ (largeInfo_mono hd (by omega) (by omega)))

theorem tbsLarge_largeSize {p d : Nat} (r : Nat) (hd : 0 < d) (hp : 3824 * d < p) : LargeSize p d r (tbsLarge p d r) := by
  refine ⟨largeExp (p - 24 * d) d, largeSteps (p - 24 * d) d, _, codeBlocks r _, largeExp_isLog hd (by omega),
    largeSteps_spec _ hd, rfl, codeBlocks_spec r _, codeBlocks_pos r _, ?_, Nat.add_le_add_right (le_blockSize r _) 24, ?_⟩
  · exact blockSize_add r _ ▸ Nat.mul_mod_right _ _
  · have := blockSize_lt r (max 3840 (largeInfo (p - 24 * d) d))
    rw [tbsLarge_eq]
    exact (Nat.add_lt_add_right this 24).trans_eq (Nat.add_right_comm _ _ _)

/-- A size fits its register where the product P does. -/
theorem tbsLarge_lt {p d : Nat} (r : Nat) (hd : 2048 ≤ d) (hp : 3824 * d < p) (hfit : p ≤ 2 ^ 37) :
    tbsLarge p d r < 2 ^ 32 := by
  have hinfo := largeInfo_le (a := p - 24 * d) (d := d) (by omega) (by omega)
  have hscale := Nat.mul_le_mul_right (largeInfo (p - 24 * d) d) hd
  have hsize := blockSize_lt r (max 3840 (largeInfo (p - 24 * d) d))
  have hblocks := codeBlocks_le r (max 3840 (largeInfo (p - 24 * d) d))
  rw [tbsLarge_eq]
  omega

/-! ## The size (R150, R152) -/

theorem tbsOf_eq_none_iff (nre sden r qm nu : Nat) : tbsOf nre sden r qm nu = none ↔ nre * r * qm * nu = 0 := by
  unfold tbsOf
  by_cases h : nre * r * qm * nu = 0
  · simp [h]
  · simp only [h, if_false, iff_false]
    split <;> exact Option.some_ne_none _

/-- The branch that gives the size. -/
theorem tbsOf_eq_some {nre sden r qm nu x : Nat} (h : tbsOf nre sden r qm nu = some x) :
    (nre * r * qm * nu ≤ 3824 * (2048 * sden) ∧ x = tbsSmall (nre * r * qm * nu) (2048 * sden)) ∨
      (3824 * (2048 * sden) < nre * r * qm * nu ∧ x = tbsLarge (nre * r * qm * nu) (2048 * sden) r) := by
  simp only [tbsOf] at h
  split at h
  · cases h
  split at h <;> cases h
  next hle => exact .inl ⟨hle, rfl⟩
  next hgt => exact .inr ⟨Nat.lt_of_not_le hgt, rfl⟩

/-- R152: every size is at least 24. -/
theorem le_tbsOf {nre sden r qm nu x : Nat} (h : tbsOf nre sden r qm nu = some x) : 24 ≤ x := by
  rcases tbsOf_eq_some h with ⟨hp, rfl⟩ | ⟨-, rfl⟩
  · exact (le_max_left _ _).trans (tbsSmall_least hp).2.1
  · exact Nat.le_trans (by decide) (le_tbsLarge _ _ _)

/-- The size of register operands fits a register. -/
theorem tbsOf_lt {nre sden r qm nu x : Nat} (hs : 0 < sden) (hnre : nre ≤ 2 ^ 20) (hr : r ≤ 2 ^ 12) (hqm : qm ≤ 8)
    (hnu : nu ≤ 4) (h : tbsOf nre sden r qm nu = some x) : x < 2 ^ 32 := by
  have hp : nre * r * qm * nu ≤ 2 ^ 20 * 2 ^ 12 * 8 * 4 := by gcongr
  rcases tbsOf_eq_some h with ⟨hle, rfl⟩ | ⟨hlt, rfl⟩
  · exact (tbsSmall_le hle).trans_lt (by decide)
  · exact tbsLarge_lt r (by omega) hlt (by simpa using hp)

/-- Settles O34: the two branches are monotone, and all sizes of the first lie below all of the second. -/
theorem tbsIsMonotone : Obligations.TbsIsMonotone := by
  intro nre nre' sden r qm nu x y hs hnre hx hy
  have hd : 0 < 2048 * sden := by omega
  have hp : nre * r * qm * nu ≤ nre' * r * qm * nu := by gcongr
  rcases tbsOf_eq_some hx with ⟨hle, rfl⟩ | ⟨hlt, rfl⟩ <;> rcases tbsOf_eq_some hy with ⟨hle', rfl⟩ | ⟨hlt', rfl⟩
  · exact tbsSmall_mono hp hle'
  · exact (tbsSmall_le hle).trans (Nat.le_trans (by decide) (le_tbsLarge _ _ _))
  · omega
  · exact tbsLarge_mono r hd hlt hp

/-- Settles O35: the table's own law, then each branch against R150. -/
theorem tbsIsQuantised : Obligations.TbsIsQuantised := by
  refine ⟨fun v _ hv => quantTable_least hv, fun nre sden r qm nu hs =>
    ⟨tbsOf_eq_none_iff nre sden r qm nu, fun x hx => ⟨ResultSteps.tbsOf_mod hx, le_tbsOf hx, ?_⟩⟩⟩
  have hd : 0 < 2048 * sden := by omega
  rcases tbsOf_eq_some hx with ⟨hle, rfl⟩ | ⟨hlt, rfl⟩
  · rw [if_pos hle]
    exact ⟨(tbsSmall_least hle).1, tbsSmall_smallSize hle⟩
  · rw [if_neg (Nat.not_le.mpr hlt)]
    exact tbsLarge_largeSize r hd hlt

end Sys2Proof.TransportBlockSize

/-! SUPPORT. How a check or a computation of the Resource Allocation Engine fails (R316, R318): the failing line, and the
completion it leads to. -/

namespace Sys2Proof.RaeFailures

open Sys2Proof.Machine Sys2Proof.Claims

/-- R318: a success is a completion. -/
theorem finish_done (s : State) : finish (.done s) = .next (completed s) := rfl

theorem finish_orRaise_ok {α : Type} {x : Except Raised α} {y : α} (h : x = .ok y) (s : State) (k : α → CmdEnd) :
    finish (orRaise x s k) = finish (k y) := by rw [h, orRaise_ok]

/-- R316, R318: a failed computation ends the command with its error, nothing written. -/
theorem finish_orRaise_error {α : Type} {x : Except Raised α} {code : ErrCode} {step : BitVec 4}
    (h : x = .error { code := code, step := step }) (s : State) (k : α → CmdEnd) :
    finish (orRaise x s k) = .next (failed (errClassNum code) (errCodeNum code) step s) := by
  rw [h, orRaise_error, CommandWords.finish_raised]

theorem ok_bind {α β : Type} (x : α) (k : α → Except Raised β) : (Except.ok x >>= k) = k x := rfl

theorem error_bind {α β : Type} (e : Raised) (k : α → Except Raised β) : (Except.error e >>= k) = .error e := rfl

@[simp] theorem guardLines_nil (step : BitVec 4) : guardLines step [] = .ok () := rfl

/-- R316: line by line. -/
@[simp] theorem guardLines_cons (step : BitVec 4) (fails : Bool) (code : ErrCode) (rest : List (Bool × ErrCode)) :
    guardLines step ((fails, code) :: rest) =
      if fails then .error { code := code, step := step } else guardLines step rest := by
  cases fails <;> rfl

theorem qmLegal_iff (qm : Nat) : qmLegal qm = true ↔ OrderLegal qm := by
  simp only [qmLegal, Bool.or_eq_true, beq_iff_eq, or_assoc]

theorem ncgIllegal_iff (ty : Bool) (ncg : BitVec 2) : ncgIllegal ty ncg.toNat = true ↔ GroupsIllegal ty ncg := by
  revert ty ncg
  decide

/-- A check on a field's number that it is 0. -/
theorem toNat_eq_zero_iff {n : Nat} (v : BitVec n) : v.toNat = 0 ↔ v = 0 := by
  rw [BitVec.toNat_eq]
  rfl

end Sys2Proof.RaeFailures

/-! SUPPORT. The lookup of modulation and rate (R143 to R145, R190 to R196). -/

namespace Sys2Proof.McsLookups

open Sys2Proof.Machine Sys2Proof.Claims Sys2Proof.RegisterPort Sys2Proof.ResultSteps Sys2Proof.RaeFailures

/-! ## Tables and their selection (R190 to R196) -/

/-- R196: no table exactly on a reserved code. -/
theorem selectTable_eq_none_iff (tbl fmt ss rnti : Nat) :
    selectTable tbl fmt ss rnti = none ↔ tbl = 3 ∨ 4 ≤ fmt ∨ 2 ≤ ss ∨ 8 ≤ rnti := by
  unfold selectTable
  split
  next h => exact iff_of_true rfl h
  next h => exact iff_of_false (by split_ifs <;> simp) h

theorem rntiSelectsTables_iff (rnti : Nat) : rntiSelectsTables rnti = true ↔ rnti = 0 ∨ rnti = 5 ∨ rnti = 6 := by
  simp only [rntiSelectsTables, Bool.or_eq_true, beq_iff_eq, or_assoc]

/-- R196: table T2 among the tables selected. -/
theorem selectTable_eq_t2_iff {tbl fmt ss rnti : Nat} {t : McsTable} (h : selectTable tbl fmt ss rnti = some t) :
    t = .t2 ↔ tbl = 1 ∧ (fmt = 1 ∨ fmt = 3) ∧ (rnti = 0 ∨ rnti = 5 ∨ rnti = 6) := by
  rw [← rntiSelectsTables_iff]
  unfold selectTable at h
  split at h
  · cases h
  split at h
  next h2 => exact iff_of_true (Option.some.inj h).symm h2
  next h2 =>
    refine iff_of_false ?_ h2
    rintro rfl
    split_ifs at h <;> cases h

/-- R194: an index is outside a table from row 28 of T2 and row 29 of the others. -/
theorem tableEntry_eq_none_iff (t : McsTable) (mcs : Nat) : tableEntry t mcs = none ↔ 29 ≤ mcs ∨ (mcs = 28 ∧ t = .t2) := by
  rw [tableEntry, List.getElem?_eq_none_iff]
  cases t
  case t1 => simp [mcsRows, mcsRows1]
  case t2 =>
    have hlen : (mcsRows .t2).length = 28 := rfl
    rw [hlen]
    simp only [and_true]
    omega
  case t3 => simp [mcsRows, mcsRows3]

/-- R143: a lookup without a result. -/
theorem mcsLookup_eq_none_iff (tbl : BitVec 2) (fmt : BitVec 3) (ss : BitVec 2) (rnti : BitVec 4) (mcs : BitVec 5) :
    mcsLookup tbl fmt ss rnti mcs = none ↔
      (tbl.toNat = 3 ∨ 4 ≤ fmt.toNat ∨ 2 ≤ ss.toNat ∨ 8 ≤ rnti.toNat) ∨ 29 ≤ mcs.toNat ∨
        (mcs.toNat = 28 ∧ tbl.toNat = 1 ∧ (fmt.toNat = 1 ∨ fmt.toNat = 3) ∧
          (rnti.toNat = 0 ∨ rnti.toNat = 5 ∨ rnti.toNat = 6)) := by
  rw [← selectTable_eq_none_iff]
  unfold mcsLookup
  cases hsel : selectTable tbl.toNat fmt.toNat ss.toNat rnti.toNat with
  | none => simp
  | some t => simp only [tableEntry_eq_none_iff, selectTable_eq_t2_iff hsel, reduceCtorEq, false_or]

/-- Settles O30: the failing operands by the selection and the length of the selected table, the results row by row. -/
theorem lookupFailsExactlyOutside : Obligations.LookupFailsExactlyOutside := by
  refine fun tbl fmt ss rnti mcs => ⟨?_, fun qm r h => ?_⟩
  · rw [mcsLookup_eq_none_iff]
    simp only [BitVec.toNat_eq, or_assoc]
    rfl
  · obtain ⟨hqm, hlo, hhi⟩ := mcsLookup_legal h
    exact ⟨(qmLegal_iff qm).mp hqm, hlo, hhi⟩

/-! ## The two commands (R144, R145) -/

theorem regRead_mod (s : State) : regRead 0x05D s = s.res.qm.setWidth 32 := regRead_eq_of_get rfl rfl

/-- R124, R144: the sentinel reads as bit 31 alone. -/
theorem rateWord_rateResult_none (r : ResRegs) : rateWord (rateResult none r) = 0x80000000 := by
  change BitVec.ofBool true ++ (0#19 ++ 0#12) = 0x80000000
  decide

/-- R124, R144: a rate reads as itself. -/
theorem rateWord_rateResult_some (qm : Nat) {rate : Nat} (h : rate < 2 ^ 12) (r : ResRegs) :
    rateWord (rateResult (some (qm, rate)) r) = BitVec.ofNat 32 rate := by
  apply BitVec.eq_of_toNat_eq
  simp only [rateWord, rateResult, BitVec.toNat_append, toNat_fieldOf h, BitVec.toNat_ofNat, BitVec.toNat_ofBool,
    Bool.toNat_false, Nat.zero_shiftLeft, Nat.zero_or, Nat.zero_mod]
  omega

/-- R145: an order reads as itself. -/
theorem modResult_setWidth {qm : Nat} (rate : Nat) (h : qm < 2 ^ 4) (r : ResRegs) :
    (modResult (some (qm, rate)) r).qm.setWidth 32 = BitVec.ofNat 32 qm := by
  apply BitVec.eq_of_toNat_eq
  rw [BitVec.toNat_setWidth, modResult, toNat_fieldOf h, BitVec.toNat_ofNat]

/-- R145: a legal order is not written as the sentinel. -/
theorem modResult_ne_zero {qm : Nat} (rate : Nat) (h : OrderLegal qm) (r : ResRegs) :
    (modResult (some (qm, rate)) r).qm ≠ 0 := by
  change fieldOf 4 qm ≠ 0
  obtain rfl | rfl | rfl | rfl := h <;> decide

/-- Settles O29: both commands complete with the result of one lookup, the sentinel where it has none. -/
theorem lookups : Obligations.Lookups := by
  refine ⟨by decide, by decide, fun s => ⟨_, _, finish_done _, finish_done _, ?_⟩⟩
  rw [regRead_rate, regRead_mod]
  cases hl : opLookup s.args.op with
  | none =>
    rw [opLookup] at hl
    rw [hl]
    exact ⟨rfl, rfl, ⟨rateWord_rateResult_none s.res, rfl⟩, iff_of_true rfl rfl⟩
  | some e =>
    obtain ⟨qm, rate⟩ := e
    rw [opLookup] at hl
    obtain ⟨hqm, hlo, hhi⟩ := mcsLookup_legal hl
    rw [qmLegal_iff] at hqm
    rw [hl]
    exact ⟨rfl, rfl, ⟨rateWord_rateResult_some qm (by omega) s.res, modResult_setWidth rate (by omega) s.res⟩,
      iff_of_false Bool.false_ne_true (modResult_ne_zero rate hqm s.res)⟩

end Sys2Proof.McsLookups

/-! SUPPORT. The counts of resource elements (R146 to R149, R228): as numbers of pairs, as the length of the position list, and
as SLOT_NRE answers them. -/

namespace Sys2Proof.ElementCounts

open Sys2Proof.Machine Sys2Proof.Claims Sys2Proof.ResultSteps Sys2Proof.RaeFailures

/-! ## Counts of pairs and positions (R147, R148, R228) -/

/-- R148: the elements of one block are the pairs of the span that carry data. -/
theorem nrePerPrb_eq_pairs (p : Pattern) :
    nrePerPrb p = (((spanOf p).product (List.range 12)).filter fun x => !excl p x.1 x.2).length := by
  rw [List.product, List.filter_flatMap, List.length_flatMap, nrePerPrb]
  simp only [List.filter_map, List.length_map]
  rfl

/-- Settles O32: the second factor of both counts is the number of pairs. -/
theorem countsAreCountsOfPairs : Obligations.CountsAreCountsOfPairs := by
  intro p
  constructor
  · rw [nreAvail, nrePerPrb_eq_pairs]
    rfl
  · rw [nreEff, nrePerPrb_eq_pairs]
    rfl

/-- R228: as many positions as available elements. -/
theorem posList_length (p : Pattern) : (posList p).length = nreAvail p := by
  simp only [posList, List.length_flatMap, List.length_map, List.map_const', List.sum_replicate, smul_eq_mul]
  rw [List.sum_map_mul_left]
  rfl

/-- R148: the two counts are 0 together. -/
theorem nreAvail_pos {p : Pattern} (h : nreEff p ≠ 0) : nreAvail p ≠ 0 := by
  have := nreEff_le_nreAvail p
  omega

/-! ## SLOT_NRE (R149) -/

/-- R149: the checks in order, then the two counts. -/
theorem slotNre_eq (step : BitVec 4) (p : Pattern) :
    slotNre step p =
      if nPrb p.prbMask = 0 then .error { code := .iiNoPrb, step := step }
      else if p.symL = 0 ∨ 14 < p.symS + p.symL then .error { code := .iiEmptySymbols, step := step }
      else if ncgIllegal p.dmrsType p.ncg = true then .error { code := .iiGrantField, step := step }
      else .ok (nreEff p, nreAvail p) := by
  simp only [slotNre, slotNreLines, guardLines_cons, guardLines_nil, Bool.or_eq_true, decide_eq_true_eq]
  split_ifs <;> rfl

/-- R149: `SlotNre()` on the Grant and configuration registers. -/
theorem slotNre_patternOf (step : BitVec 4) (r : Records) :
    slotNre step (patternOf r) =
      if nPrb r.gr.prbMask = 0 then .error { code := .iiNoPrb, step := step }
      else if r.gr.symL = 0 ∨ 14 < r.gr.symS.toNat + r.gr.symL.toNat then
        .error { code := .iiEmptySymbols, step := step }
      else if GroupsIllegal r.cfg.dmrsType r.gr.ncg then .error { code := .iiGrantField, step := step }
      else .ok (nreEff (patternOf r), nreAvail (patternOf r)) := by
  rw [slotNre_eq]
  refine if_congr Iff.rfl rfl (if_congr ?_ rfl (if_congr (ncgIllegal_iff _ _) rfl rfl))
  rw [← toNat_eq_zero_iff]
  rfl

/-- R148: the counts of a span inside a slot, as the registers hold them. -/
theorem toNat_counts {p : Pattern} (h : p.symL ≤ 14) :
    (fieldOf 20 (nreEff p)).toNat = nreEff p ∧ (fieldOf 20 (nreAvail p)).toNat = nreAvail p :=
  ⟨toNat_fieldOf ((nreEff_le_nreAvail p).trans_lt (nreAvail_lt h)), toNat_fieldOf (nreAvail_lt h)⟩

/-- Settles O31: the equation of `SlotNre()` on the registers, case by case. -/
theorem slotNre : Obligations.SlotNre := by
  refine ⟨by decide, fun s => ?_⟩
  have heq := slotNre_patternOf 0 s.recs
  split_ifs at heq ⊢ with hprb hsym hncg
  · exact finish_orRaise_error heq s _
  · exact finish_orRaise_error heq s _
  · exact finish_orRaise_error heq s _
  · have hspan : (patternOf s.recs).symL ≤ 14 := show s.recs.gr.symL.toNat ≤ 14 by omega
    exact ⟨_, finish_orRaise_ok heq s _, rfl, toNat_counts hspan⟩

end Sys2Proof.ElementCounts

/-! SUPPORT. The commands on one transport block (R150, R151, R153): TBS, FILL_TB.0 and FILL_TB.1. -/

namespace Sys2Proof.TransportBlockCommands

open Sys2Proof.Machine Sys2Proof.Claims Sys2Proof.ResultSteps Sys2Proof.RaeFailures Sys2Proof.ElementCounts
  Sys2Proof.TransportBlockSize

/-! ## Operands of the size -/

theorem scalingDen_eq (code : BitVec 2) : scalingDen code = if code = 2 then 2 else if code = 3 then 4 else 1 := by
  revert code
  decide

theorem scalingDen_pos (code : BitVec 2) : 0 < scalingDen code := by
  revert code
  decide

/-- R150: with a rate, an order and layers there is a size exactly for a positive element count. -/
theorem tbsOf_eq_none_iff_nre {nre sden r qm nu : Nat} (hr : r ≠ 0) (hqm : qm ≠ 0) (hnu : nu ≠ 0) :
    tbsOf nre sden r qm nu = none ↔ nre = 0 := by
  simp [tbsOf_eq_none_iff, hr, hqm, hnu]

/-! ## TBS (R151) -/

/-- R151: the operands that TBS accepts. -/
def OperandsLegal (op : OpArgs) : Prop := OrderLegal op.qm.toNat ∧ 1 ≤ op.nlayers.toNat ∧ op.nlayers.toNat ≤ 4

theorem tbsOperandsIllegal_iff (op : OpArgs) : tbsOperandsIllegal op = true ↔ ¬ OperandsLegal op := by
  simp only [tbsOperandsIllegal, Bool.or_eq_true, Bool.not_eq_true', decide_eq_true_eq, ← Bool.not_eq_true, qmLegal_iff]
  unfold OperandsLegal
  omega

/-- R151: with legal operands there is no size exactly when the element count or the rate is 0. -/
theorem opTbs_eq_none_iff {op : OpArgs} (h : OperandsLegal op) : opTbs op = none ↔ op.nre = 0 ∨ op.r = 0 := by
  obtain ⟨hqm, hlow, -⟩ := h
  have hqm0 : op.qm.toNat ≠ 0 := by omega
  have hnu0 : op.nlayers.toNat ≠ 0 := by omega
  rw [opTbs, tbsOf_eq_none_iff, ← toNat_eq_zero_iff op.nre, ← toNat_eq_zero_iff op.r]
  simp only [Nat.mul_eq_zero, hqm0, hnu0, or_false]

theorem opTbs_lt {op : OpArgs} (h : OperandsLegal op) {t : Nat} (ht : opTbs op = some t) : t < 2 ^ 32 := by
  obtain ⟨hqm, -, hhigh⟩ := h
  exact tbsOf_lt (scalingDen_pos op.sc) op.nre.isLt.le op.r.isLt.le (by omega) hhigh ht

theorem tbsCheck_eq (op : OpArgs) :
    guardLines 0 [(tbsOperandsIllegal op, .iiEnum)] =
      if tbsOperandsIllegal op = true then .error { code := .iiEnum, step := 0 } else .ok () :=
  guardLines_cons ..

theorem execTbs_of_illegal {s : State} (h : ¬ OperandsLegal s.args.op) : execTbs s = .next (failed 1 0x18 0 s) :=
  finish_orRaise_error ((tbsCheck_eq _).trans (if_pos ((tbsOperandsIllegal_iff _).mpr h))) s _

theorem tbsCheck_of_legal {op : OpArgs} (h : OperandsLegal op) :
    guardLines 0 [(tbsOperandsIllegal op, .iiEnum)] = .ok () :=
  (tbsCheck_eq op).trans (if_neg fun hill => (tbsOperandsIllegal_iff op).mp hill h)

/-- R151: legal operands without a size. -/
theorem execTbs_of_none {s : State} (h : OperandsLegal s.args.op) (ht : opTbs s.args.op = none) :
    execTbs s = .next (failed 4 0x81 0 { s with res := { s.res with tbs := 0 } }) := by
  rw [execTbs, tbsCheck_of_legal h, orRaise_ok, ht]
  exact CommandWords.finish_raised _ _

/-- R151: legal operands with a size. -/
theorem execTbs_of_some {s : State} {t : Nat} (h : OperandsLegal s.args.op) (ht : opTbs s.args.op = some t) :
    execTbs s = .next (completed { s with res := { s.res with tbs := fieldOf 32 t } }) := by
  rw [execTbs, tbsCheck_of_legal h, orRaise_ok, ht]
  rfl

/-- Settles O33: the operand check, then the two cases of the size. -/
theorem tbsCommand : Obligations.TbsCommand := by
  refine ⟨by decide, fun s => ?_⟩
  rw [← scalingDen_eq]
  split_ifs with hill hzero
  · exact execTbs_of_illegal (by unfold OperandsLegal; omega)
  all_goals
    have hlegal : OperandsLegal s.args.op := by unfold OperandsLegal; omega
    rw [← opTbs_eq_none_iff hlegal] at hzero
  · exact execTbs_of_none hlegal hzero
  · obtain ⟨t, ht⟩ := Option.ne_none_iff_exists'.mp hzero
    exact ⟨_, t, execTbs_of_some hlegal ht, rfl, ht, toNat_fieldOf (opTbs_lt hlegal ht)⟩

/-! ## FILL_TB (R153) -/

/-- R153, step 3, and R161: the size or the error. -/
theorem tbsStep_eq (step : BitVec 4) (eff r qm nu : Nat) :
    tbsStep step eff r qm nu = (tbsOf eff 1 r qm nu).elim (.error { code := .ciTbs, step := step }) .ok := by
  unfold tbsStep
  cases tbsOf eff 1 r qm nu <;> rfl

/-- R153, step 2: the checks of `SlotNre()`, then the layers. -/
theorem fillCount_eq (r : Records) :
    fillCount r =
      if nPrb r.gr.prbMask = 0 then .error { code := .iiNoPrb, step := 2 }
      else if r.gr.symL = 0 ∨ 14 < r.gr.symS.toNat + r.gr.symL.toNat then .error { code := .iiEmptySymbols, step := 2 }
      else if GroupsIllegal r.cfg.dmrsType r.gr.ncg then .error { code := .iiGrantField, step := 2 }
      else if r.gr.nlayers.toNat < 1 ∨ 4 < r.gr.nlayers.toNat then .error { code := .iiGrantField, step := 2 }
      else .ok (nreEff (patternOf r), nreAvail (patternOf r)) := by
  simp only [fillCount, slotNre_patternOf, guardLines_cons, guardLines_nil, Bool.or_eq_true, decide_eq_true_eq]
  split_ifs <;> rfl

/-- R153: without a row of the table, step 1 fails. -/
theorem fillTb_of_lookup_none {r : Records} {mcs : BitVec 5}
    (h : mcsLookup r.cfg.mcsTable r.gr.format r.gr.ssType r.gr.rntiType mcs = none) :
    fillTb r mcs = .error { code := .ciMcs, step := 1 } := by
  simp only [fillTb, fillLookup, h, error_bind]

section
variable {r : Records} {mcs : BitVec 5} {qm rate : Nat}

/-- R153: a failure of the counts is the command's. -/
theorem fillTb_of_count_error {e : Raised}
    (h : mcsLookup r.cfg.mcsTable r.gr.format r.gr.ssType r.gr.rntiType mcs = some (qm, rate))
    (hc : fillCount r = .error e) : fillTb r mcs = .error e := by
  simp only [fillTb, fillLookup, h, hc, ok_bind, error_bind]

/-- R153: with the counts known, the size decides. -/
theorem fillTb_of_count {eff avail : Nat}
    (h : mcsLookup r.cfg.mcsTable r.gr.format r.gr.ssType r.gr.rntiType mcs = some (qm, rate))
    (hc : fillCount r = .ok (eff, avail)) :
    fillTb r mcs = (tbsOf eff 1 rate qm r.gr.nlayers.toNat).elim (.error { code := .ciTbs, step := 3 })
      fun t => .ok { qm := qm, r := rate, tbs := t, nbits := avail * qm * r.gr.nlayers.toNat } := by
  simp only [fillTb, fillLookup, h, hc, tbsStep_eq, ok_bind]
  cases tbsOf eff 1 rate qm r.gr.nlayers.toNat <;> rfl

end

/-- R153, R161: the size and the coded bits of a legal order and at most 4 layers fit their registers. -/
theorem toNat_tbFields {p : Pattern} {qm rate nu t : Nat} (hspan : p.symL ≤ 14) (hqm : qm ≤ 8) (hrate : rate ≤ 1896)
    (hnu : nu ≤ 4) (ht : tbsOf (nreEff p) 1 rate qm nu = some t) :
    (fieldOf 4 qm).toNat = qm ∧ (fieldOf 12 rate).toNat = rate ∧ (fieldOf 32 t).toNat = t ∧
      (fieldOf 32 (nreAvail p * qm * nu)).toNat = nreAvail p * qm * nu := by
  have havail := nreAvail_lt hspan
  have heff := nreEff_le_nreAvail p
  have hbits : nreAvail p * qm * nu ≤ 2 ^ 20 * 8 * 4 := by gcongr
  exact ⟨toNat_fieldOf (by omega), toNat_fieldOf (by omega),
    toNat_fieldOf (tbsOf_lt one_pos (by omega) (by omega) hqm hnu ht), toNat_fieldOf (by omega)⟩

/-- Settles O36: the lookup, the checks of step 2 one by one, and the size. -/
theorem fillTb : Obligations.FillTb := by
  refine ⟨by decide, by decide, fun s => ⟨CommandWords.finish_raised _ _, ?_⟩⟩
  cases hl : mcsLookup s.recs.cfg.mcsTable s.recs.gr.format s.recs.gr.ssType s.recs.gr.rntiType s.args.op.mcs with
  | none => exact finish_orRaise_error (fillTb_of_lookup_none hl) s _
  | some e =>
    obtain ⟨qm, r⟩ := e
    obtain ⟨hqm, hlo, hhi⟩ := mcsLookup_legal hl
    have hqm8 := qmLegal_le hqm
    rw [qmLegal_iff] at hqm
    have hcount := fillCount_eq s.recs
    dsimp only
    split_ifs at hcount ⊢ with hprb hsym hncg hnu heff
    · exact finish_orRaise_error (fillTb_of_count_error hl hcount) s _
    · exact finish_orRaise_error (fillTb_of_count_error hl hcount) s _
    · exact finish_orRaise_error (fillTb_of_count_error hl hcount) s _
    · exact finish_orRaise_error (fillTb_of_count_error hl hcount) s _
    all_goals
      have hfill := fillTb_of_count hl hcount
      have hsize := tbsOf_eq_none_iff_nre (nre := nreEff (patternOf s.recs)) (sden := 1) (r := r) (qm := qm)
        (nu := s.recs.gr.nlayers.toNat) (by omega) (by omega) (by omega)
      rw [← hsize] at heff
    · rw [heff] at hfill
      exact finish_orRaise_error hfill s _
    · obtain ⟨t, ht⟩ := Option.ne_none_iff_exists'.mp heff
      rw [ht] at hfill
      have hspan : (patternOf s.recs).symL ≤ 14 := show s.recs.gr.symL.toNat ≤ 14 by omega
      exact ⟨_, t, finish_orRaise_ok hfill s _, rfl, ht, rfl, toNat_tbFields hspan hqm8 hhi (by omega) ht⟩

end Sys2Proof.TransportBlockCommands

/-! SUPPORT. The frequency-domain allocation value (R157, R204, R205): what the decoder answers, and the blocks it names. -/

namespace Sys2Proof.FrequencyAllocation

open Sys2Proof.Machine

/-- R204: the decoder's answer for riv = N a + b, by the half of the code it lies in. -/
theorem rivDecode_eq_some {n riv start len : Nat} (h : rivDecode n riv = some (start, len)) :
    riv < n * (n + 1) / 2 ∧
      ((riv / n + riv % n < n ∧ start = riv % n ∧ len = riv / n + 1) ∨
        (n ≤ riv / n + riv % n ∧ start = n - 1 - riv % n ∧ len = n - riv / n + 1)) := by
  unfold rivDecode at h
  split at h
  · cases h
  next hriv =>
    refine ⟨Nat.lt_of_not_le hriv, ?_⟩
    dsimp only at h
    split_ifs at h with hab <;> cases h
    · exact .inl ⟨hab, rfl, rfl⟩
    · exact .inr ⟨Nat.le_of_not_lt hab, rfl, rfl⟩

/-- R204: a decodable value has its quotient in the lower half of the carrier. -/
theorem two_mul_riv_div_le {n riv : Nat} (h : riv < n * (n + 1) / 2) : 2 * (riv / n) ≤ n := by
  have hle : n * (riv / n) ≤ riv := Nat.mul_div_le riv n
  have hn : 0 < n := Nat.pos_of_ne_zero (by rintro rfl; simp at h)
  have hlt : n * (2 * (riv / n)) < n * (n + 1) := by
    rw [Nat.mul_left_comm]
    omega
  exact Nat.lt_add_one_iff.mp (Nat.lt_of_mul_lt_mul_left hlt)

/-- R204: a decoded allocation is not empty and lies inside the carrier. -/
theorem rivDecode_fits {n riv start len : Nat} (h : rivDecode n riv = some (start, len)) : 1 ≤ len ∧ start + len ≤ n := by
  obtain ⟨hlt, hcases⟩ := rivDecode_eq_some h
  have hhalf := two_mul_riv_div_le hlt
  have hn : 0 < n := Nat.pos_of_ne_zero (by rintro rfl; simp at hlt)
  have hmod := Nat.mod_lt riv hn
  omega

/-- R205: encoding a decoded allocation gives the value back. -/
theorem rivEncode_of_rivDecode {n riv start len : Nat} (h : rivDecode n riv = some (start, len)) :
    rivEncode n start len = riv := by
  obtain ⟨hlt, hcases⟩ := rivDecode_eq_some h
  have hhalf := two_mul_riv_div_le hlt
  have hn : 0 < n := Nat.pos_of_ne_zero (by rintro rfl; simp at hlt)
  have hmod := Nat.mod_lt riv hn
  have hsplit : n * (riv / n) + riv % n = riv := Nat.div_add_mod riv n
  unfold rivEncode
  obtain ⟨hab, rfl, rfl⟩ | ⟨hab, rfl, rfl⟩ := hcases
  · rwa [Nat.add_sub_cancel, if_pos (by omega)]
  · have hlong : ¬ n - riv / n + 1 - 1 ≤ n / 2 := by
      intro hshort
      have hquot : 2 * (riv / n) = n := by omega
      have hsq : 2 * (n * (riv / n)) = n * n := by rw [Nat.mul_left_comm, hquot]
      rw [Nat.mul_add_one] at hlt
      omega
    rw [if_neg hlong]
    have hquot : n - (n - riv / n + 1) + 1 = riv / n := by omega
    have hrem : n - 1 - (n - 1 - riv % n) = riv % n := by omega
    rw [hquot, hrem, hsplit]

theorem mem_prbSet_prbMaskOf {start len n : Nat} (h : start + len ≤ 288) :
    n ∈ prbSet (prbMaskOf start len) ↔ start ≤ n ∧ n < start + len := by
  rw [mem_prbSet]
  constructor
  · rintro ⟨hn, hbit⟩
    simpa [prbBit_prbMaskOf _ _ _ hn] using hbit
  · rintro ⟨hlo, hhi⟩
    have hn : n < 288 := by omega
    simp [prbBit_prbMaskOf _ _ _ hn, hn, hlo, hhi]

/-- R146: a non-empty contiguous set has blocks. -/
theorem prbSet_prbMaskOf_ne_nil {start len : Nat} (hlen : 1 ≤ len) (h : start + len ≤ 288) :
    prbSet (prbMaskOf start len) ≠ [] :=
  List.ne_nil_of_mem ((mem_prbSet_prbMaskOf h).mpr ⟨le_rfl, by omega⟩)

end Sys2Proof.FrequencyAllocation

/-! SUPPORT. DCI2GRANT (R154 to R165): its checks against the list of R156 to R161, what it writes, and what the written
registers have in common. -/

namespace Sys2Proof.DciGrants

open Sys2Proof.Machine Sys2Proof.Claims Sys2Proof.ResultSteps Sys2Proof.RaeFailures Sys2Proof.ElementCounts
  Sys2Proof.TransportBlockSize Sys2Proof.TransportBlockCommands Sys2Proof.FrequencyAllocation

/-! ## The error of a computation (R316) -/

/-- Class, code and step of the error, if there is one. -/
def errorRecord {α : Type} : Except Raised α → Option (BitVec 3 × BitVec 8 × BitVec 4)
  | .ok _ => none
  | .error e => some (errClassNum e.code, errCodeNum e.code, e.step)

/-- R316: the first line of a list of checks, and the rest where it passes. -/
theorem errorRecord_check {α : Type} {step : BitVec 4} {fails : Bool} {code : ErrCode} {rest : List (Bool × ErrCode)}
    {k : Unit → Except Raised α} {P : Prop} [Decidable P] {x : Option (BitVec 3 × BitVec 8 × BitVec 4)}
    (hP : fails = true ↔ P) (hrest : ¬ P → errorRecord (guardLines step rest >>= k) = x) :
    errorRecord (guardLines step ((fails, code) :: rest) >>= k) =
      if P then some (errClassNum code, errCodeNum code, step) else x := by
  rw [guardLines_cons]
  by_cases h : P
  · rw [if_pos h, if_pos (hP.mpr h)]
    rfl
  · rw [if_neg h, if_neg (mt hP.mp h), hrest h]

theorem bind_eq_ok {α β : Type} {x : Except Raised α} {k : α → Except Raised β} {y : β} :
    x >>= k = .ok y ↔ ∃ z, x = .ok z ∧ k z = .ok y := by
  cases x with
  | ok z => simp [bind, Except.bind]
  | error e => simp [bind, Except.bind]

/-! ## The checks (R156 to R160) -/

/-- R159: the layers of the selected antenna-port row. -/
abbrev dciLayers (dir : Bool) (a : ArgRegs) : Nat := popcount (aptPorts (dciAptRow dir a))

theorem carrierIllegal_iff (c : Carrier) : (!carrierValid c) = true ↔ CarrierIllegal c := by
  rw [Bool.not_eq_true', ← Bool.not_eq_true, carrierValid_iff]
  omega

theorem formatUnfit_iff (dir : Bool) (fmt : BitVec 3) :
    formatUnfit dir fmt = true ↔ (dir = false ∧ fmt ≠ 2 ∧ fmt ≠ 3) ∨ (dir = true ∧ fmt ≠ 0 ∧ fmt ≠ 1) := by
  revert dir fmt
  decide

theorem portIllegal_iff (ty : Bool) (ncg : BitVec 2) (p : Nat) :
    portIllegal ty ncg.toNat p = true ↔ PortRefused ty ncg p := by
  simp only [portIllegal, Bool.or_eq_true, Bool.and_eq_true, Bool.not_eq_true', decide_eq_true_eq]

theorem nsymb_le (cp : Bool) : nsymb cp ≤ 14 := by cases cp <;> decide

section
variable {dir : Bool} {a : ArgRegs} {start len : Nat}

/-- R157: an allocation that is not of the contiguous type. -/
theorem dciFreq_of_type (h : (hlBank dir a).allocType ≠ 1) :
    dciFreq dir a = .error { code := .ucAllocType, step := 1 } :=
  if_pos fun h1 => h (BitVec.eq_of_toNat_eq h1)

/-- R157: the contiguous type is decoded. -/
theorem dciFreq_of_contiguous (h : (hlBank dir a).allocType = 1) :
    dciFreq dir a = ((rivDecode a.car.nprb.toNat a.dci.fda.toNat).elim (.error { code := .iiRiv, step := 1 }) .ok) := by
  rw [dciFreq, if_neg (by rw [h]; decide)]
  cases rivDecode a.car.nprb.toNat a.dci.fda.toNat <;> rfl

theorem dciLookup_eq (dir : Bool) (a : ArgRegs) :
    dciLookup dir a = (mcsLookup (hlBank dir a).mcsTable a.dci.format a.dci.ssType a.dci.rntiType a.dci.mcs).elim
      (.error { code := .ciMcs, step := 4 }) .ok := by
  unfold dciLookup
  cases mcsLookup (hlBank dir a).mcsTable a.dci.format a.dci.ssType a.dci.rntiType a.dci.mcs <;> rfl

/-- R160: after steps 1 to 3 the checks of `SlotNre()` pass. -/
theorem slotNre_dciPattern (hlen : 1 ≤ len) (hfit : start + len ≤ 288)
    (hspan : ¬ (tdraL (dciTdraRow dir a) = 0 ∨
      nsymb a.car.cp < (tdraS (dciTdraRow dir a)).toNat + (tdraL (dciTdraRow dir a)).toNat))
    (hncg : ¬ GroupsIllegal (dmrsType (dciDmrsRow dir a)) (aptNcg (dciAptRow dir a))) :
    Machine.slotNre 4 (dciPattern dir a start len) =
      .ok (nreEff (dciPattern dir a start len), nreAvail (dciPattern dir a start len)) := by
  have hprb : nPrb (prbMaskOf start len) ≠ 0 := mt List.eq_nil_of_length_eq_zero (prbSet_prbMaskOf_ne_nil hlen hfit)
  have hnsymb := nsymb_le a.car.cp
  rw [← toNat_eq_zero_iff] at hspan
  have hin : ¬ ((tdraL (dciTdraRow dir a)).toNat = 0 ∨
      14 < (tdraS (dciTdraRow dir a)).toNat + (tdraL (dciTdraRow dir a)).toNat) := by omega
  rw [slotNre_eq]
  exact (if_neg hprb).trans ((if_neg hin).trans (if_neg (mt (ncgIllegal_iff _ _).mp hncg)))

end

/-- R156 to R161: the first failing check of the rule is the first of the list. -/
theorem errorRecord_dci2Grant (dir : Bool) (a : ArgRegs) : errorRecord (dci2Grant dir a) = dciError dir a := by
  unfold dci2Grant dciError
  refine errorRecord_check (carrierIllegal_iff a.car) fun hcar => ?_
  refine errorRecord_check (formatUnfit_iff dir a.dci.format) fun _ => ?_
  refine errorRecord_check (by simp only [Bool.or_eq_true, decide_eq_true_eq]) fun _ => ?_
  refine errorRecord_check (by rw [Bool.not_eq_true']) fun _ => ?_
  by_cases htype : (hlBank dir a).allocType = 1
  case neg =>
    rw [if_pos htype, dciFreq_of_type htype]
    rfl
  rw [if_neg (not_not_intro htype), dciFreq_of_contiguous htype]
  cases hriv : rivDecode a.car.nprb.toNat a.dci.fda.toNat with
  | none => rfl
  | some sl =>
    obtain ⟨start, len⟩ := sl
    obtain ⟨hlen, hfit⟩ := rivDecode_fits hriv
    refine errorRecord_check (by rw [Bool.not_eq_true']) fun _ => ?_
    refine errorRecord_check (by simp only [Bool.or_eq_true, decide_eq_true_eq, toNat_eq_zero_iff]) fun hspan => ?_
    refine errorRecord_check (by rw [Bool.not_eq_true']) fun _ => ?_
    refine errorRecord_check decide_eq_true_iff fun hnu => ?_
    refine errorRecord_check decide_eq_true_iff fun _ => ?_
    refine errorRecord_check decide_eq_true_iff fun _ => ?_
    refine errorRecord_check (by rw [Bool.not_eq_true']) fun _ => ?_
    refine errorRecord_check (ncgIllegal_iff _ _) fun hncg => ?_
    refine errorRecord_check (by simp only [List.any_eq_true, portIllegal_iff]) fun _ => ?_
    have hcount := slotNre_dciPattern (start := start) hlen (by have := carrierIllegal_iff a.car; omega) hspan hncg
    simp only [guardLines_nil, dciLookup_eq, hcount, tbsStep_eq, ok_bind]
    cases hl : mcsLookup (hlBank dir a).mcsTable a.dci.format a.dci.ssType a.dci.rntiType a.dci.mcs with
    | none => rfl
    | some e =>
      obtain ⟨qm, rate⟩ := e
      obtain ⟨hqm, hlo, -⟩ := mcsLookup_legal hl
      rw [qmLegal_iff] at hqm
      have hsize := tbsOf_eq_none_iff_nre (nre := nreEff (dciPattern dir a start len)) (sden := 1) (r := rate) (qm := qm)
        (nu := dciLayers dir a) (by omega) (by omega) hnu
      rw [if_neg (Option.some_ne_none _)]
      simp only [Option.elim_some, ok_bind, ← hsize]
      cases tbsOf (nreEff (dciPattern dir a start len)) 1 rate qm (dciLayers dir a) with
      | none => rfl
      | some t => rfl

/-! ## What a success writes (R162) -/

/-- R156 to R161: the values a successful DCI2GRANT finds. -/
structure Granted (dir : Bool) (a : ArgRegs) (start len qm rate t : Nat) : Prop where
  carrier : carrierValid a.car = true
  freq : rivDecode a.car.nprb.toNat a.dci.fda.toNat = some (start, len)
  span : (tdraL (dciTdraRow dir a)).toNat ≤ 14
  layers : 1 ≤ dciLayers dir a ∧ dciLayers dir a ≤ 4
  ports : dciLayers dir a ≤ a.car.nports.toNat
  lookup : mcsLookup (hlBank dir a).mcsTable a.dci.format a.dci.ssType a.dci.rntiType a.dci.mcs = some (qm, rate)
  size : tbsOf (nreEff (dciPattern dir a start len)) 1 rate qm (dciLayers dir a) = some t

/-- R162: the records written with these values. -/
def grantRecords (dir : Bool) (a : ArgRegs) (start len qm rate t : Nat) : Records :=
  { gr := dciGrant dir a start len (nreEff (dciPattern dir a start len)) (nreAvail (dciPattern dir a start len))
    tb0 := dciTb a qm rate t (nreAvail (dciPattern dir a start len) * qm * dciLayers dir a)
    tb1 := TbRegs.zero
    cfg := dciCfg dir a }

theorem layers_of_guard {dir : Bool} {a : ArgRegs} {x : Unit} (h : guardLines 3 (dciLayerLines dir a) = .ok x) :
    (1 ≤ dciLayers dir a ∧ dciLayers dir a ≤ 4) ∧ dciLayers dir a ≤ a.car.nports.toNat := by
  rw [guardLines_ok_iff, firstFailing_none_iff] at h
  simp only [dciLayerLines, List.mem_cons, List.not_mem_nil, or_false, forall_eq_or_imp, forall_eq,
    decide_eq_false_iff_not] at h
  obtain ⟨-, hzero, hfour, hports, -⟩ := h
  unfold dciLayers
  omega

theorem carrier_of_guard {dir : Bool} {a : ArgRegs} {x : Unit} (h : guardLines 15 (dciPrelimLines dir a) = .ok x) :
    carrierValid a.car = true := by
  rw [guardLines_ok_iff, firstFailing_none_iff] at h
  simpa using h (!carrierValid a.car, .iiCarrier) (List.mem_cons_self ..)

theorem dciFreq_eq_ok {dir : Bool} {a : ArgRegs} {sl : Nat × Nat} (h : dciFreq dir a = .ok sl) :
    rivDecode a.car.nprb.toNat a.dci.fda.toNat = some sl := by
  by_cases htype : (hlBank dir a).allocType = 1
  · rw [dciFreq_of_contiguous htype] at h
    cases hriv : rivDecode a.car.nprb.toNat a.dci.fda.toNat <;> rw [hriv] at h <;> cases h
    rfl
  · rw [dciFreq_of_type htype] at h
    cases h

theorem dciLookup_eq_ok {dir : Bool} {a : ArgRegs} {e : Nat × Nat} (h : dciLookup dir a = .ok e) :
    mcsLookup (hlBank dir a).mcsTable a.dci.format a.dci.ssType a.dci.rntiType a.dci.mcs = some e := by
  rw [dciLookup_eq] at h
  cases hl : mcsLookup (hlBank dir a).mcsTable a.dci.format a.dci.ssType a.dci.rntiType a.dci.mcs <;>
    rw [hl] at h <;> cases h
  rfl

theorem tbsStep_eq_ok {step : BitVec 4} {eff r qm nu t : Nat} (h : tbsStep step eff r qm nu = .ok t) :
    tbsOf eff 1 r qm nu = some t := by
  rw [tbsStep_eq] at h
  cases ht : tbsOf eff 1 r qm nu <;> rw [ht] at h <;> cases h
  rfl

/-- R156 to R162: a success has passed every step, and writes the values the steps found. -/
theorem dci2Grant_eq_ok {dir : Bool} {a : ArgRegs} {r : Records} (h : dci2Grant dir a = .ok r) :
    ∃ start len qm rate t, Granted dir a start len qm rate t ∧ r = grantRecords dir a start len qm rate t := by
  obtain ⟨_, hprelim, h⟩ := bind_eq_ok.mp h
  obtain ⟨⟨start, len⟩, hfreq, h⟩ := bind_eq_ok.mp h
  obtain ⟨_, -, h⟩ := bind_eq_ok.mp h
  obtain ⟨_, hlayers, h⟩ := bind_eq_ok.mp h
  obtain ⟨⟨qm, rate⟩, hlookup, h⟩ := bind_eq_ok.mp h
  obtain ⟨⟨eff, avail⟩, hcount, h⟩ := bind_eq_ok.mp h
  obtain ⟨t, hsize, h⟩ := bind_eq_ok.mp h
  obtain ⟨-, -, hspan, -, heq⟩ := slotNre_ok hcount
  obtain ⟨hnu, hports⟩ := layers_of_guard hlayers
  cases heq
  cases h
  exact ⟨start, len, qm, rate, t,
    { carrier := carrier_of_guard hprelim
      freq := dciFreq_eq_ok hfreq
      span := le_of_add_le_right hspan
      layers := hnu
      ports := hports
      lookup := dciLookup_eq_ok hlookup
      size := tbsStep_eq_ok hsize }, rfl⟩

section
variable {dir : Bool} {a : ArgRegs} {start len qm rate t : Nat}

/-- R157: the allocation is not empty and lies inside the carrier. -/
theorem Granted.fits (h : Granted dir a start len qm rate t) :
    1 ≤ len ∧ start + len ≤ a.car.nprb.toNat ∧ a.car.nprb.toNat ≤ 275 := by
  obtain ⟨hlen, hfit⟩ := rivDecode_fits h.freq
  obtain ⟨-, hmax, -⟩ := (carrierValid_iff _).mp h.carrier
  exact ⟨hlen, hfit, hmax⟩

/-- R157: the allocation as the Grant registers hold it. -/
theorem Granted.toNat_rb (h : Granted dir a start len qm rate t) :
    (fieldOf 9 start).toNat = start ∧ (fieldOf 9 len).toNat = len := by
  obtain ⟨-, hfit, hmax⟩ := h.fits
  exact ⟨toNat_fieldOf (by omega), toNat_fieldOf (by omega)⟩

theorem Granted.toNat_layers (h : Granted dir a start len qm rate t) :
    (fieldOf 3 (dciLayers dir a)).toNat = dciLayers dir a := by
  obtain ⟨-, hnu⟩ := h.layers
  exact toNat_fieldOf (by omega)

theorem Granted.order (h : Granted dir a start len qm rate t) : OrderLegal qm :=
  (qmLegal_iff qm).mp (mcsLookup_legal h.lookup).1

/-- R161, R162: order, rate, size and coded bits as TB[0] holds them. -/
theorem Granted.toNat_tb (h : Granted dir a start len qm rate t) :
    (fieldOf 4 qm).toNat = qm ∧ (fieldOf 12 rate).toNat = rate ∧ (fieldOf 32 t).toNat = t ∧
      (fieldOf 32 (nreAvail (dciPattern dir a start len) * qm * dciLayers dir a)).toNat =
        nreAvail (dciPattern dir a start len) * qm * dciLayers dir a := by
  obtain ⟨hqm, -, hrate⟩ := mcsLookup_legal h.lookup
  exact toNat_tbFields h.span (qmLegal_le hqm) hrate h.layers.2 h.size

/-- R162: the written records hold what the rule lists. -/
theorem Granted.writes (h : Granted dir a start len qm rate t) :
    DciWrites dir a (grantRecords dir a start len qm rate t) := by
  obtain ⟨hstart, hlen⟩ := h.toNat_rb
  obtain ⟨heff, havail⟩ := toNat_counts (p := dciPattern dir a start len) h.span
  obtain ⟨hqm, hrate, ht, hbits⟩ := h.toNat_tb
  refine ⟨start, len, qm, rate, t, h.freq, h.lookup, h.size,
    ⟨rfl, rfl, rfl, rfl, rfl, hstart, hlen, rfl, rfl, rfl, h.toNat_layers, rfl, rfl, rfl, heff, havail, fun n hn => ?mask⟩,
    ⟨rfl, rfl, hqm, hrate, ht, rfl, hbits⟩, rfl, rfl, rfl, rfl, rfl, fun l hl => ?sym⟩
  case mask => exact (prbBit_prbMaskOf start len n hn).trans (Bool.decide_and ..).symm
  case sym =>
    change (dciDmrsSym dir a).getLsbD l = _
    rw [dciDmrsSym, getLsbD_bitsOf, decide_eq_true hl, Bool.true_and, Bool.decide_and, Bool.and_assoc]

/-- R228: the registers hold the pattern that was counted. -/
theorem patternOf_grantRecords (dir : Bool) (a : ArgRegs) (start len qm rate t : Nat) :
    patternOf (grantRecords dir a start len qm rate t) = dciPattern dir a start len := rfl

/-- R229: the coded length recomputed from the registers. -/
theorem Granted.codedLength_eq (h : Granted dir a start len qm rate t) :
    codedLength (grantRecords dir a start len qm rate t) =
      nreAvail (dciPattern dir a start len) * qm * dciLayers dir a := by
  rw [codedLength, patternOf_grantRecords, posList_length]
  exact congrArg₂ (nreAvail (dciPattern dir a start len) * · * ·) h.toNat_tb.1 h.toNat_layers

/-- R161: a transmission with a size has available elements. -/
theorem Granted.nreAvail_ne_zero (h : Granted dir a start len qm rate t) : nreAvail (dciPattern dir a start len) ≠ 0 := by
  refine nreAvail_pos fun hzero => ?_
  have hnone : tbsOf (nreEff (dciPattern dir a start len)) 1 rate qm (dciLayers dir a) = none := by
    simp [tbsOf_eq_none_iff, hzero]
  exact absurd (hnone.symm.trans h.size) nofun

/-- R229: the coded length is not 0. -/
theorem Granted.codedLength_ne_zero (h : Granted dir a start len qm rate t) :
    codedLength (grantRecords dir a start len qm rate t) ≠ 0 := by
  have hqm : qm ≠ 0 := by have := h.order; omega
  have hnu := Nat.one_le_iff_ne_zero.mp h.layers.1
  exact h.codedLength_eq ▸ Nat.mul_ne_zero (Nat.mul_ne_zero h.nreAvail_ne_zero hqm) hnu

end

/-! ## The command -/

theorem exec_grantOf (dir : Bool) (s : State) : exec (grantOf dir) s = finish (dci2GrantRule dir s) := by
  cases dir <;> rfl

theorem exec_grantOf_ok {dir : Bool} {s : State} {r : Records} (h : dci2Grant dir s.args = .ok r) :
    exec (grantOf dir) s = .next (completed { s with recs := r }) := by
  rw [exec_grantOf, dci2GrantRule, h]
  rfl

theorem exec_grantOf_error {dir : Bool} {s : State} {e : Raised} (h : dci2Grant dir s.args = .error e) :
    exec (grantOf dir) s =
      .next (failed (errClassNum e.code) (errCodeNum e.code) e.step { s with recs := recordsInvalid s.recs }) := by
  rw [exec_grantOf, dci2GrantRule, h]
  rfl

/-- R165: without a failing check the command succeeds with all its writes. -/
theorem granted_of_dciError {dir : Bool} {a : ArgRegs} (h : dciError dir a = none) :
    ∃ start len qm rate t, Granted dir a start len qm rate t ∧
      dci2Grant dir a = .ok (grantRecords dir a start len qm rate t) := by
  rw [← errorRecord_dci2Grant] at h
  cases hg : dci2Grant dir a with
  | error e => rw [hg] at h; cases h
  | ok r =>
    obtain ⟨start, len, qm, rate, t, hgr, rfl⟩ := dci2Grant_eq_ok hg
    exact ⟨start, len, qm, rate, t, hgr, rfl⟩

/-- Settles O37: the failing check by `errorRecord_dci2Grant`, the writes of a success by its steps. -/
theorem dci2Grant : Obligations.Dci2Grant := by
  refine ⟨by decide, by decide, fun s dir => ?_⟩
  have herr := errorRecord_dci2Grant dir s.args
  cases hg : Machine.dci2Grant dir s.args with
  | error e =>
    rw [hg] at herr
    rw [← herr]
    exact exec_grantOf_error hg
  | ok r =>
    rw [hg] at herr
    rw [← herr]
    obtain ⟨start, len, qm, rate, t, hgr, rfl⟩ := dci2Grant_eq_ok hg
    exact ⟨_, exec_grantOf_ok hg, rfl, hgr.writes⟩

/-- R96: with the value it holds already written to DCI_FDA, a state is the same. -/
theorem withFda_eq {t : State} {v : BitVec 16} (h : v = t.args.dci.fda) :
    { t with args := { t.args with dci := { t.args.dci with fda := v } } } = t := by rw [h]

/-- Settles O39: the allocation is encoded as the value that DCI_FDA holds already. -/
theorem grantRoundTrip : Obligations.GrantRoundTrip := by
  intro s dir h
  obtain ⟨start, len, qm, rate, t, hgr, hok⟩ := granted_of_dciError h
  obtain ⟨hstart, hlen⟩ := hgr.toNat_rb
  have hfda : BitVec.ofNat 16 (rivEncode s.args.car.nprb.toNat (fieldOf 9 start).toNat (fieldOf 9 len).toNat) =
      s.args.dci.fda := by
    rw [hstart, hlen, rivEncode_of_rivDecode hgr.freq, BitVec.ofNat_toNat, BitVec.setWidth_eq]
  have hstate := withFda_eq (t := completed { s with recs := grantRecords dir s.args start len qm rate t }) hfda
  have hagain := exec_grantOf_ok (s := completed { s with recs := grantRecords dir s.args start len qm rate t }) hok
  exact ⟨_, _, exec_grantOf_ok hok, (congrArg (exec (grantOf dir)) hstate).trans hagain, rfl,
    BitVec.add_assoc s.sys.cmdcnt 1 1, rfl⟩

/-- Settles O40: the coded length is recomputed from the pattern that was counted. -/
theorem grantIsConsistent : Obligations.GrantIsConsistent := by
  intro s dir h
  obtain ⟨start, len, qm, rate, t, hgr, hok⟩ := granted_of_dciError h
  obtain ⟨hlen, hfit, hmax⟩ := hgr.fits
  obtain ⟨hqm, -, ht, hbits⟩ := hgr.toNat_tb
  obtain ⟨-, havail⟩ := toNat_counts (p := dciPattern dir s.args start len) hgr.span
  have hsize := le_tbsOf hgr.size
  refine ⟨_, exec_grantOf_ok hok, hbits.trans hgr.codedLength_eq.symm, hgr.codedLength_ne_zero,
    havail.trans (posList_length _).symm, ?order, ?positive, ?bytes, fun n hn => ?inside,
    prbSet_prbMaskOf_ne_nil hlen (by omega), hgr.toNat_layers.symm, hgr.toNat_layers.trans_le hgr.ports, rfl⟩
  case order => exact hqm.symm ▸ hgr.order
  case positive => exact ht.trans_ne (by omega)
  case bytes => exact (congrArg (· % 8) ht).trans (tbsOf_mod hgr.size)
  case inside =>
    obtain ⟨-, hlt⟩ := (mem_prbSet_prbMaskOf (by omega)).mp hn
    exact hlt.trans_le hfit

end Sys2Proof.DciGrants

/-! The frequency-domain allocation value as a code (R204, R205): every legal range decodes to itself, and the values
below N(N+1)/2 are the ones that decode. -/

namespace Sys2Proof.FrequencyAllocationCode

open Sys2Proof.Machine Sys2Proof.FrequencyAllocation

/-- R204: below the bound the check of the decoded range never refuses; the half of the code decides the answer. -/
theorem rivDecode_of_lt {n riv : Nat} (h : riv < n * (n + 1) / 2) :
    rivDecode n riv = some (if riv / n + riv % n < n then (riv % n, riv / n + 1)
      else (n - 1 - riv % n, n - riv / n + 1)) := by
  have hhalf := two_mul_riv_div_le h
  have hmod := Nat.mod_lt riv (show 0 < n from Nat.pos_of_ne_zero (by rintro rfl; simp at h))
  unfold rivDecode
  rw [if_neg (Nat.not_le_of_lt h)]
  refine if_neg ?_
  split_ifs with hab
  · show ¬ (riv / n + 1 < 1 ∨ n < riv % n + (riv / n + 1))
    omega
  · show ¬ (n - riv / n + 1 < 1 ∨ n < n - 1 - riv % n + (n - riv / n + 1))
    omega

theorem rivDecode_eq_none_iff {n riv : Nat} : rivDecode n riv = none ↔ n * (n + 1) / 2 ≤ riv := by
  refine ⟨fun hnone => Nat.le_of_not_lt fun hlt => ?_, fun hle => if_pos hle⟩
  rw [rivDecode_of_lt hlt] at hnone
  cases hnone

/-- The values below the bound: any remainder with a quotient below N/2, and the lower half of the remainders with the
quotient N/2 of an even N. -/
theorem mul_add_lt_triangle {n a b : Nat} (h : 2 * a < n ∧ b < n ∨ 2 * a = n ∧ 2 * b < n) :
    n * a + b < n * (n + 1) / 2 := by
  have hdouble : 2 * (n * a) = n * (2 * a) := Nat.mul_left_comm 2 n a
  have hbound : n * (n + 1) = n * n + n := Nat.mul_succ n n
  obtain ⟨ha, hb⟩ | ⟨ha, hb⟩ := h
  · have hrow : n * (2 * a) + n ≤ n * n := Nat.mul_le_mul_left n ha
    omega
  · rw [ha] at hdouble
    omega

/-- R204: the decoder's answer for the value with quotient a and remainder b. -/
theorem rivDecode_mul_add {n a b : Nat} (hb : b < n) (h : n * a + b < n * (n + 1) / 2) :
    rivDecode n (n * a + b) = some (if a + b < n then (b, a + 1) else (n - 1 - b, n - a + 1)) := by
  have hdiv : (n * a + b) / n = a := by rw [Nat.mul_add_div (by omega), Nat.div_eq_of_lt hb, Nat.add_zero]
  have hmod : (n * a + b) % n = b := by rw [Nat.mul_add_mod, Nat.mod_eq_of_lt hb]
  rw [rivDecode_of_lt h, hdiv, hmod]

/-- R205: a range is coded with a quotient and remainder whose sum tells the two halves of the code apart. -/
theorem rivDecode_rivEncode {n start len : Nat} (hlen : 1 ≤ len) (hfit : start + len ≤ n) :
    rivDecode n (rivEncode n start len) = some (start, len) := by
  unfold rivEncode
  split_ifs with hshort
  · rw [rivDecode_mul_add (by omega) (mul_add_lt_triangle (by omega)), if_pos (by omega), Nat.sub_add_cancel hlen]
  · have hstart : n - 1 - (n - 1 - start) = start := by omega
    have hlength : n - (n - len + 1) + 1 = len := by omega
    rw [rivDecode_mul_add (by omega) (mul_add_lt_triangle (by omega)), if_neg (by omega), hstart, hlength]

/-- Settles O38: decoding after encoding and encoding after decoding, by the halves of the code; the refusals by the
bound. -/
theorem rivIsABijection : Obligations.RivIsABijection := fun _ _ _ =>
  ⟨fun _ _ => rivDecode_rivEncode,
    fun _ _ _ h => ⟨(rivDecode_fits h).1, (rivDecode_fits h).2, rivEncode_of_rivDecode h⟩,
    fun _ => rivDecode_eq_none_iff⟩

end Sys2Proof.FrequencyAllocationCode

/-! SUPPORT. The order of the two units over a step (R64, R221 to R224, R270 to R272): each command that writes a unit's
registers leaves them in agreement with its lifecycle. -/

namespace Sys2Proof.UnitOrder

open Sys2Proof.Machine Sys2Proof.Config Sys2Proof.Claims Sys2Proof.StepCases Sys2Proof.CommandFrames Sys2Proof.HostFrames
  Sys2Proof.UnitLifecycles

/-- R318: what a rule leaves in a unit's registers stands in them after its completion. -/
theorem exec_units {i : Instr} {s t : State} {P : PipeRegs → SaRegs → Prop}
    (hrule : ∃ r, exec i s = finish r ∧ P (endState r).pipe (endState r).sa) (h : exec i s = .next t) : P t.pipe t.sa := by
  obtain ⟨r, hr, hP⟩ := hrule
  obtain rfl := (finish_next_iff r t).mp (hr ▸ h)
  obtain ⟨-, -, -, -, hpipe, hsa, -⟩ := finishState_fields r
  rwa [hpipe, hsa]

/-! ## The PIPE (R222 to R224) -/

theorem pipeInv_zero : pipeInv PipeRegs.zero = true := by decide

/-- R222: the arguments that pass the checks are legal capacities. -/
theorem capsLegal_of_pipeInitLines {s : State} {x : Unit} (h : guardLines 0 (pipeInitLines s) = .ok x) (role : Role) :
    capsLegal (pipeReady role s.args.pa) = true := by
  rw [guardLines_ok_iff, firstFailing_none_iff] at h
  have hargs := h _ (List.mem_cons_of_mem _ List.mem_cons_self)
  simp only [Bool.or_eq_false_iff, decide_eq_false_iff_not] at hargs
  simp only [hwMaxPrb, hwMaxLayers, hwMaxCw] at hargs
  rw [capsLegal_iff]
  simp only [pipeReady]
  omega

/-- R222: a ready PIPE with legal capacities is in order. -/
theorem pipeInv_pipeReady {role : Role} {pa : PipeArgs} (h : capsLegal (pipeReady role pa) = true) :
    pipeInv (pipeReady role pa) = true :=
  (pipeInv_iff _).mpr ⟨nofun, nofun, fun _ => ⟨h, rfl⟩, nofun⟩

/-- R222: a failed allocation leaves an UNINIT PIPE in order, PARTIAL without capacity. -/
theorem pipeInv_partial {p : PipeRegs} (hinv : pipeInv p = true) (h : p.state = .uninit) (role : Role) :
    pipeInv { p with role := role, state := .partialInit } = true := by
  rw [((pipeInv_iff p).mp hinv).1 h]
  exact (pipeInv_iff _).mpr ⟨nofun, fun _ => ⟨rfl, rfl, rfl, rfl, rfl⟩, nofun, nofun⟩

theorem pipeInitRule_inOrder (role : Role) {s : State} (hinv : pipeInv s.pipe = true) :
    pipeInv (endState (pipeInitRule role s)).pipe = true := by
  refine endState_orRaise (P := fun t => pipeInv t.pipe = true) hinv fun _ hx => ?_
  dsimp only
  split
  · exact pipeInv_pipeReady (capsLegal_of_pipeInitLines hx role)
  · exact pipeInv_partial hinv (uninit_of_pipeInitLines hx) role

/-- R223: the carrier that passes the checks is legal. -/
theorem carrierValid_of_pipeSetCarrierLines {s : State} {x : Unit} (h : guardLines 0 (pipeSetCarrierLines s) = .ok x) :
    carrierValid s.args.car = true := by
  rw [guardLines_ok_iff, firstFailing_none_iff] at h
  simpa using h _ (List.mem_cons_of_mem _ List.mem_cons_self)

/-- R221: an initialised PIPE in order has legal capacities. -/
theorem capsLegal_of_initialised {p : PipeRegs} (hinv : pipeInv p = true) (h : p.state = .ready ∨ p.state = .carrierSet) :
    capsLegal p = true := by
  obtain ⟨-, -, hready, hset⟩ := (pipeInv_iff p).mp hinv
  exact h.elim (fun hs => (hready hs).1) fun hs => (hset hs).1

/-- R223: a legal carrier latched within a capacity that has not shrunk. -/
theorem pipeInv_pipeWithCarrier {s : State} {capPrb : BitVec 9} (hcaps : capsLegal s.pipe = true)
    (hcar : carrierValid s.args.car = true) (hgrow : s.pipe.capPrb.toNat ≤ capPrb.toNat) (hmax : capPrb.toNat ≤ 275)
    (hfit : s.args.car.nprb.toNat ≤ capPrb.toNat) : pipeInv (pipeWithCarrier capPrb s) = true := by
  rw [capsLegal_iff] at hcaps
  refine (pipeInv_iff _).mpr ⟨nofun, nofun, nofun, fun _ => ⟨(capsLegal_iff _).mpr ?_, hcar, hfit⟩⟩
  simp only [pipeWithCarrier]
  omega

theorem execPipeSetCarrier_inOrder {s : State} (hinv : pipeInv s.pipe = true) :
    ∃ r, execPipeSetCarrier s = finish r ∧ pipeInv (endState r).pipe = true := by
  refine ⟨_, rfl, endState_orRaise (P := fun t => pipeInv t.pipe = true) hinv fun _ hx => ?_⟩
  have hcar := carrierValid_of_pipeSetCarrierLines hx
  have hcaps := capsLegal_of_initialised hinv (initialised_of_pipeSetCarrierLines hx)
  obtain ⟨-, hprb, -⟩ := (carrierValid_iff _).mp hcar
  obtain ⟨hold, -⟩ := pipe_caps_le hinv
  split
  case isTrue hgrow =>
    split
    · exact pipeInv_pipeWithCarrier hcaps hcar hgrow.le hprb le_rfl
    · exact hinv
  case isFalse hfit => exact pipeInv_pipeWithCarrier hcaps hcar le_rfl hold (Nat.le_of_not_lt hfit)

/-- R221: every command keeps the PIPE in order. -/
theorem exec_pipeInv {i : Instr} {s t : State} (hinv : pipeInv s.pipe = true) (h : exec i s = .next t) :
    pipeInv t.pipe = true := by
  by_cases hi : i ∈ [Instr.pipeInitTx, .pipeInitRx, .pipeSetCarrier, .pipeFree]
  · refine exec_units (P := fun p _ => pipeInv p = true) ?_ h
    simp only [List.mem_cons, List.not_mem_nil, or_false] at hi
    obtain rfl | rfl | rfl | rfl := hi
    · exact ⟨_, rfl, pipeInitRule_inOrder .transmitter hinv⟩
    · exact ⟨_, rfl, pipeInitRule_inOrder .receiver hinv⟩
    · exact execPipeSetCarrier_inOrder hinv
    · exact ⟨_, rfl, pipeInv_zero⟩
  · rwa [(exec_frame h).pipe hi]

/-! ## The SA (R271, R272) -/

theorem le_maxBits_left {n : Nat} (a b : BitVec n) : a.toNat ≤ (maxBits a b).toNat := by
  unfold maxBits
  split <;> omega

/-- R271: a legal carrier latched within capacities of the hardware; the latched CORESET is kept. -/
theorem saInv_saWithCarrier {s : State} {capPrb : BitVec 9} {capPorts : BitVec 3} (hinv : saInv s.sa = true)
    (hcar : carrierValid s.args.car = true) (hprb : s.args.car.nprb.toNat ≤ capPrb.toNat ∧ capPrb.toNat ≤ 275)
    (hports : s.args.car.nports.toNat ≤ capPorts.toNat ∧ capPorts.toNat ≤ 4) :
    saInv (saWithCarrier capPrb capPorts s) = true :=
  (saInv_iff _).mpr ⟨nofun, fun _ => ⟨hcar, hprb.1, hprb.2, hports.1, hports.2⟩, ((saInv_iff _).mp hinv).2.2⟩

theorem carrierValid_of_saSetCarrier {s : State} {x : Unit}
    (h : guardLines 0 [(!carrierValid s.args.car, .iiCarrier)] = .ok x) : carrierValid s.args.car = true := by
  rw [guardLines_ok_iff, firstFailing_none_iff] at h
  simpa using h _ List.mem_cons_self

/-- R17: an allocation that succeeds for the SA is within the maxima. -/
theorem le_maxima_of_allocOk_sa {n k : Nat} {s : State} (h : allocOk .sa n k s = true) : n ≤ 275 ∧ k ≤ 4 :=
  (allocWithinMaxima_sa n k).mp ((Bool.and_eq_true _ _).mp h).1

theorem execSaSetCarrier_inOrder {s : State} (hinv : saInv s.sa = true) :
    ∃ r, execSaSetCarrier s = finish r ∧ saInv (endState r).sa = true := by
  refine ⟨_, rfl, endState_orRaise (P := fun t => saInv t.sa = true) hinv fun _ hx => ?_⟩
  have hcar := carrierValid_of_saSetCarrier hx
  have hprb := le_maxBits_left s.args.car.nprb s.sa.capPrb
  have hports := le_maxBits_left s.args.car.nports s.sa.capPorts
  dsimp only
  split
  case isTrue =>
    split
    case isTrue halloc =>
      obtain ⟨hp, ha⟩ := le_maxima_of_allocOk_sa halloc
      exact saInv_saWithCarrier hinv hcar ⟨hprb, hp⟩ ⟨hports, ha⟩
    case isFalse => exact hinv
  case isFalse hfit =>
    obtain ⟨hp, ha⟩ := sa_caps_le hinv
    exact saInv_saWithCarrier hinv hcar (by omega) (by omega)

/-- R272: the CORESET that passes the check is legal. -/
theorem execSaSetCoreset_inOrder {s : State} (hinv : saInv s.sa = true) :
    ∃ r, execSaSetCoreset s = finish r ∧ saInv (endState r).sa = true := by
  refine ⟨_, rfl, endState_orRaise (P := fun t => saInv t.sa = true) hinv fun _ hx => ?_⟩
  rw [guardLines_ok_iff, firstFailing_none_iff] at hx
  obtain ⟨hno, hset, -⟩ := (saInv_iff _).mp hinv
  exact (saInv_iff _).mpr ⟨hno, hset, fun _ => hx _ List.mem_cons_self⟩

/-- R270: every command keeps the SA in order. -/
theorem exec_saInv {i : Instr} {s t : State} (hinv : saInv s.sa = true) (h : exec i s = .next t) :
    saInv t.sa = true := by
  by_cases hi : i ∈ [Instr.saSetCarrier, .saSetCoreset]
  · refine exec_units (P := fun _ a => saInv a = true) ?_ h
    simp only [List.mem_cons, List.not_mem_nil, or_false] at hi
    obtain rfl | rfl := hi
    · exact execSaSetCarrier_inOrder hinv
    · exact execSaSetCoreset_inOrder hinv
  · rwa [(exec_frame h).sa hi]

/-! ## Every step -/

theorem unitsInv_reset : unitsInv State.reset = true := by decide

/-- A state with the unit registers of one in order. -/
theorem unitsInv_of_eq {s t : State} (hinv : unitsInv s = true) (hpipe : t.pipe = s.pipe) (hsa : t.sa = s.sa) :
    unitsInv t = true := by
  rwa [unitsInv, hpipe, hsa]

/-- Settles O25: a command keeps each unit in order by its own writers, any other turn but reset leaves both. -/
theorem stepKeepsUnitsInOrder : Obligations.StepKeepsUnitsInOrder := by
  intro s t hinv h
  cases step_cases h with
  | reset => exact unitsInv_reset
  | idle | reserved => exact hinv
  | command _ _ _ ht =>
    obtain ⟨hpipe, hsa⟩ := (unitsInv_iff s).mp hinv
    exact (unitsInv_iff t).mpr ⟨exec_pipeInv (s := turnGone s) hpipe ht, exec_saInv (s := turnGone s) hsa ht⟩
  | @busyHost x =>
    obtain ⟨-, -, -, -, hpipe, hsa, -⟩ := busyAccess_frame x (turnGone s)
    exact unitsInv_of_eq hinv hpipe hsa
  | @idleHost x =>
    obtain ⟨-, -, hpipe, hsa⟩ := idleAccess_frame x (turnGone s)
    exact unitsInv_of_eq hinv hpipe hsa

end Sys2Proof.UnitOrder

/-! SUPPORT. The data positions (R228): their order, which elements they are, and that no reference-signal position is one
(R277). -/

namespace Sys2Proof.DataPositions

open Sys2Proof.Machine Sys2Proof.Claims Sys2Proof.ElementCounts

/-! ## Order (R228) -/

theorem prbSet_rises (m : Vector Word 9) : (prbSet m).Pairwise (· < ·) := List.pairwise_lt_range.filter _

theorem dataScs_rises (p : Pattern) (l : Nat) : (dataScs p l).Pairwise (· < ·) := List.pairwise_lt_range.filter _

theorem spanOf_rises (p : Pattern) : (spanOf p).Pairwise (· < ·) := List.pairwise_lt_range'

/-- R228: symbols first, then subcarriers. -/
abbrev Before (x y : Nat × Nat) : Prop := x.1 < y.1 ∨ (x.1 = y.1 ∧ x.2 < y.2)

/-- R228: the positions of one resource block in one symbol. -/
def blockPositions (p : Pattern) (l n : Nat) : List (Nat × Nat) := (dataScs p l).map fun sc => (l, 12 * n + sc)

/-- R228: the positions of one symbol, block by block. -/
def symbolPositions (p : Pattern) (l : Nat) : List (Nat × Nat) := (prbSet p.prbMask).flatMap (blockPositions p l)

theorem posList_eq_flatMap (p : Pattern) : posList p = (spanOf p).flatMap (symbolPositions p) := rfl

theorem mem_blockPositions {p : Pattern} {l n : Nat} {x : Nat × Nat} (h : x ∈ blockPositions p l n) :
    x.1 = l ∧ 12 * n ≤ x.2 ∧ x.2 < 12 * n + 12 := by
  obtain ⟨sc, hsc, rfl⟩ := List.mem_map.mp h
  obtain ⟨hlt, -⟩ := (mem_dataScs p l sc).mp hsc
  exact ⟨rfl, Nat.le_add_right _ _, Nat.add_lt_add_left hlt _⟩

theorem fst_of_mem_symbolPositions {p : Pattern} {l : Nat} {x : Nat × Nat} (h : x ∈ symbolPositions p l) : x.1 = l := by
  obtain ⟨n, -, hx⟩ := List.mem_flatMap.mp h
  exact (mem_blockPositions hx).1

theorem blockPositions_rise (p : Pattern) (l n : Nat) : (blockPositions p l n).Pairwise Before :=
  List.pairwise_map.mpr ((dataScs_rises p l).imp fun h => .inr ⟨rfl, Nat.add_lt_add_left h _⟩)

theorem symbolPositions_rise (p : Pattern) (l : Nat) : (symbolPositions p l).Pairwise Before := by
  refine List.pairwise_flatMap.mpr ⟨fun n _ => blockPositions_rise p l n, (prbSet_rises _).imp fun {m n} hmn x hx y hy => ?_⟩
  obtain ⟨hxl, -, hxlt⟩ := mem_blockPositions hx
  obtain ⟨hyl, hyle, -⟩ := mem_blockPositions hy
  exact .inr ⟨hxl.trans hyl.symm, by omega⟩

theorem posList_rises (p : Pattern) : (posList p).Pairwise Before := by
  rw [posList_eq_flatMap]
  refine List.pairwise_flatMap.mpr ⟨fun l _ => symbolPositions_rise p l, (spanOf_rises p).imp fun hlm x hx y hy => ?_⟩
  rw [Before, fst_of_mem_symbolPositions hx, fst_of_mem_symbolPositions hy]
  exact .inl hlm

/-- Settles O41: the count and the order of the position list. -/
theorem positionsRiseAndFill : Obligations.PositionsRiseAndFill := fun p => ⟨posList_length p, posList_rises p⟩

/-- R228: no position appears twice. -/
theorem posList_nodup (p : Pattern) : (posList p).Nodup :=
  (posList_rises p).imp fun {x y} h hxy => by subst hxy; simp [Before] at h

/-! ## Reference signals (R147, R277) -/

/-- R277: a reference-signal position lies in a DMRS symbol, on a subcarrier of its port's group. -/
theorem mem_dmrsPositions {p : Pattern} {ports : BitVec 12} {j q l k : Nat} (h : (j, q, l, k) ∈ dmrsPositions p ports) :
    q ∈ setBits ports ∧ p.dmrsSym.getLsbD l = true ∧ k % 12 ∈ groupSc p.dmrsType (portGroup p.dmrsType q) := by
  simp only [dmrsPositions, List.mem_flatMap, List.mem_map, List.mem_filter, Prod.mk.injEq] at h
  obtain ⟨⟨q', j'⟩, hq, l', ⟨-, hl⟩, n, -, sc, hsc, rfl, rfl, rfl, rfl⟩ := h
  have hlt := SlotGrid.groupSc_lt hsc
  have hmod : (12 * n + sc) % 12 = sc := by omega
  exact ⟨List.fst_mem_of_mem_zipIdx hq, hl, hmod.symm ▸ hsc⟩

/-- R147, R210: in a DMRS symbol the subcarriers of a group below the CDM-group count carry no data. -/
theorem excl_of_group {p : Pattern} {l g sc : Nat} (hl : p.dmrsSym.getLsbD l = true) (hg : g < p.ncg)
    (hsc : sc ∈ groupSc p.dmrsType g) : excl p l sc = true := by
  have hresv : dmrsResv p.dmrsType p.ncg sc = true :=
    List.any_eq_true.mpr ⟨g, List.mem_range.mpr hg, List.contains_iff_mem.mpr hsc⟩
  rw [excl, hl, hresv]
  rfl

/-- R225 line 13: the group of a legal port is below the CDM-group count. -/
theorem portGroup_lt {ty : Bool} {ncg q : Nat} (h : portIllegal ty ncg q = false) : portGroup ty q < ncg := by
  simp only [portIllegal, Bool.or_eq_false_iff, decide_eq_false_iff_not] at h
  omega

/-- Settles O42: membership by `mem_posList`; the group of a legal port is excluded in its symbols. -/
theorem dataAvoidsReferenceSignals : Obligations.DataAvoidsReferenceSignals := by
  refine fun p ports => ⟨fun l k => ?_, fun hports j q l k hq hdata => ?_⟩
  · rw [mem_posList, mem_prbSet, and_assoc, and_assoc]
  · obtain ⟨hport, hl, hsc⟩ := mem_dmrsPositions hq
    obtain ⟨-, -, hfree⟩ := (mem_posList p l k).mp hdata
    exact Bool.false_ne_true (hfree.symm.trans (excl_of_group hl (portGroup_lt (hports q hport)) hsc))

end Sys2Proof.DataPositions

/-! SUPPORT. The modulation mappers (R236 to R240): each coordinate is built bit by bit from a sign and a distance, and gives
the bits back. -/

namespace Sys2Proof.ModulationMapper

open Sys2Proof.Machine Sys2Proof.Config Sys2Proof.Claims

/-- R236 to R239: a coordinate is odd and of magnitude below the bound. -/
abbrev OddBelow (bound x : Int) : Prop := x % 2 = 1 ∧ |x| < bound

theorem oddBelow_two : ∀ a : Bool, OddBelow 2 (sgn a) := by decide

theorem oddBelow_four : ∀ a b : Bool, OddBelow 4 (sgn a * (2 - sgn b)) := by decide

theorem oddBelow_eight : ∀ a b c : Bool, OddBelow 8 (sgn a * (4 - sgn b * (2 - sgn c))) := by decide

theorem oddBelow_sixteen : ∀ a b c d : Bool, OddBelow 16 (sgn a * (8 - sgn b * (4 - sgn c * (2 - sgn d)))) := by decide

/-- R236 to R239: both coordinates of every order are odd and below 2^(Qm/2). -/
theorem gridPoint_oddBelow {qm : Nat} (h : OrderLegal qm) (b : Nat → Bool) :
    OddBelow (2 ^ (qm / 2)) (gridPoint qm b).1 ∧ OddBelow (2 ^ (qm / 2)) (gridPoint qm b).2 := by
  obtain rfl | rfl | rfl | rfl := h
  · exact ⟨oddBelow_two _, oddBelow_two _⟩
  · exact ⟨oddBelow_four _ _, oddBelow_four _ _⟩
  · exact ⟨oddBelow_eight _ _ _, oddBelow_eight _ _ _⟩
  · exact ⟨oddBelow_sixteen _ _ _ _, oddBelow_sixteen _ _ _ _⟩

/-- R253: the hard decisions of a lawful record tell the bits of a grid point, so the point determines them. -/
theorem bits_of_gridPoint_eq {qm : Nat} (h : OrderLegal qm) {b b' : Nat → Bool}
    (hpoint : gridPoint qm b = gridPoint qm b') {j : Nat} (hj : j < qm) : b j = b' j := by
  rw [← exactNumerics.hard_decision qm h b j hj, hpoint, exactNumerics.hard_decision qm h b' j hj]

/-- Settles O43: the bits by the hard decisions of the exact record, the coordinates order by order. -/
theorem mapperIsOneToOne : Obligations.MapperIsOneToOne := by
  intro qm hqm b b'
  obtain ⟨⟨hodd, hlt⟩, ⟨hodd', hlt'⟩⟩ := gridPoint_oddBelow hqm b
  exact ⟨fun hpoint _ => bits_of_gridPoint_eq hqm hpoint, hodd, hodd', hlt, hlt'⟩

end Sys2Proof.ModulationMapper

/-! SUPPORT. The data path, element by element, for any numerics (R232, R240, R241, R252, R253), and that the receive path
gives the transmitted bits back (R255). -/

namespace Sys2Proof.DataPath

open Sys2Proof.Machine Sys2Proof.Config Sys2Proof.Claims

/-! ## Scrambling (R232) -/

theorem scramble_length {b c : List Bool} (h : c.length = b.length) : (scramble b c).length = b.length := by
  simp [scramble, h]

/-- R232: bit i of the scrambled stream, 0 beyond its end. -/
theorem scramble_getD {b c : List Bool} (h : c.length = b.length) (i : Nat) :
    (scramble b c).getD i false = xor (b.getD i false) (c.getD i false) := by
  by_cases hi : i < b.length
  · have hc : i < c.length := h ▸ hi
    simp [scramble, hi, hc]
  · have hc : ¬ i < c.length := h ▸ hi
    simp [scramble, hi, hc]

/-! ## Modulation (R240) -/

theorem modulate_getElem? (nm : Numerics) {qm : Nat} {bs : List Bool} {i : Nat} (h : i < bs.length / qm) :
    (modulate nm qm bs)[i]? = some (nm.point qm (groupPoint qm bs i).1 (groupPoint qm bs i).2) := by
  simp [modulate, h]

/-- R16, R253: the hard decisions of symbol i are the bits of its group. -/
theorem hard_softdemod_point (nm : Numerics) {qm : Nat} (hqm : OrderLegal qm) (bs : List Bool) (i : Nat) {j : Nat}
    (hj : j < qm) :
    nm.hard (nm.softdemod qm (nm.point qm (groupPoint qm bs i).1 (groupPoint qm bs i).2) j) = bs.getD (qm * i + j) false :=
  nm.hard_decision qm hqm _ j hj

/-! ## Layers (R241, R252) -/

/-- Symbol nu·i + lam of a stream of nu·m symbols. -/
theorem mul_add_lt_mul {nu m i lam : Nat} (hi : i < m) (hlam : lam < nu) : nu * i + lam < nu * m :=
  calc nu * i + lam
    _ < nu * i + nu := Nat.add_lt_add_left hlam _
    _ = nu * (i + 1) := (Nat.mul_succ nu i).symm
    _ ≤ nu * m := Nat.mul_le_mul_left nu hi

theorem mul_add_div_mod {nu i lam : Nat} (hlam : lam < nu) :
    (nu * i + lam) / nu = i ∧ (nu * i + lam) % nu = lam := by
  rw [Nat.mul_add_div (by omega), Nat.div_eq_of_lt hlam, Nat.mul_add_mod, Nat.mod_eq_of_lt hlam]
  exact ⟨rfl, rfl⟩

theorem layerOf_getElem? {nm : Numerics} {d : List Sample} {nu lam m i : Nat} {x : Sample} (hi : i < m)
    (hx : d[nu * i + lam]? = some x) : (layerOf nm d nu lam m)[i]? = some x := by
  simp [layerOf, hi, hx]

@[simp] theorem layersToStream_length (nm : Numerics) (xh : List (List Sample)) (nu m : Nat) :
    (layersToStream nm xh nu m).length = nu * m := by simp [layersToStream]

theorem layersToStream_getElem? {nm : Numerics} {xh : List (List Sample)} {nu m i lam : Nat} {x : List Sample} {y : Sample}
    (hi : i < m) (hlam : lam < nu) (hx : xh[lam]? = some x) (hy : x[i]? = some y) :
    (layersToStream nm xh nu m)[nu * i + lam]? = some y := by
  obtain ⟨hdiv, hmod⟩ := mul_add_div_mod (i := i) hlam
  simp [layersToStream, mul_add_lt_mul hi hlam, hdiv, hmod, hx, hy]

/-- R252: re-assembling the layers of a stream gives the stream. -/
theorem layersToStream_layerOf (nm : Numerics) {d : List Sample} {nu m : Nat} (hd : d.length = nu * m) :
    layersToStream nm ((List.range nu).map fun lam => layerOf nm d nu lam m) nu m = d := by
  refine List.ext_getElem? fun j => ?_
  by_cases hj : j < nu * m
  · have hnu : 0 < nu := Nat.pos_of_mul_pos_right (Nat.zero_lt_of_lt hj)
    have hlam := Nat.mod_lt j hnu
    have hi : j / nu < m := Nat.div_lt_of_lt_mul hj
    have hsym : d[nu * (j / nu) + j % nu]? = some d[j] := by rw [Nat.div_add_mod, List.getElem?_eq_getElem]
    have hlayer : ((List.range nu).map fun lam => layerOf nm d nu lam m)[j % nu]? = some (layerOf nm d nu (j % nu) m) := by
      simp [hlam]
    rw [← Nat.div_add_mod j nu, layersToStream_getElem? hi hlam hlayer (layerOf_getElem? hi hsym), hsym]
  · rw [List.getElem?_eq_none (by simpa using hj), List.getElem?_eq_none (by omega)]

/-! ## Soft bits (R253) -/

@[simp] theorem softBits_length (nm : Numerics) (qm : Nat) (dh : List Sample) :
    (softBits nm qm dh).length = dh.length * qm := by simp [softBits]

/-- R253: soft bit i is bit i mod Qm of symbol i div Qm. -/
theorem softBits_getElem? (nm : Numerics) {qm : Nat} (hqm : 0 < qm) (dh : List Sample) (i : Nat) :
    (softBits nm qm dh)[i]? = dh[i / qm]?.map fun d => nm.softdemod qm d (i % qm) := by
  induction dh generalizing i with
  | nil => simp [softBits]
  | cons d dh ih =>
    rw [softBits, List.flatMap_cons, ← softBits, List.getElem?_append]
    simp only [List.length_map, List.length_range]
    split
    case isTrue hi => simp [hi, Nat.div_eq_of_lt hi, Nat.mod_eq_of_lt hi]
    case isFalse hi =>
      have hle := Nat.le_of_not_lt hi
      rw [ih, ← Nat.mod_eq_sub_mod hle, Nat.div_eq_sub_div hqm hle, List.getElem?_cons_succ]

theorem descramble_getElem? {nm : Numerics} {llr : List Llr} {seq : List Bool} {i : Nat} {x : Llr} {y : Bool}
    (hx : llr[i]? = some x) (hy : seq[i]? = some y) :
    (descramble nm llr seq)[i]? = some (if y then nm.neg x else x) := by
  simp [descramble, List.getElem?_zipWith, hx, hy]

/-- R253: descrambling undoes scrambling on the hard decision, where negation flips it. -/
theorem hard_flip {nm : Numerics} (hneg : ∀ x, nm.hard (nm.neg x) = !nm.hard x) {x : Llr} {b c : Bool}
    (h : nm.hard x = xor b c) : nm.hard (if c then nm.neg x else x) = b := by
  cases c <;> simp [hneg, h]

/-! ## The two paths together (R255) -/

/-- Settles O44: the layers give the symbols back, and each soft bit its bit, flipped where the sequence is 1. -/
theorem receiveInvertsTransmit : Obligations.ReceiveInvertsTransmit := by
  intro nm qm nu m b c hqm _ hneg hb hc
  have hpos : 0 < qm := by obtain rfl | rfl | rfl | rfl := hqm <;> decide
  have hlen : c.length = b.length := hc.trans hb.symm
  have hcount : (scramble b c).length / qm = nu * m := by
    rw [scramble_length hlen, hb, Nat.mul_right_comm, Nat.mul_div_cancel _ hpos, Nat.mul_comm]
  rw [layersToStream_layerOf nm ((modulate_length nm qm _).trans hcount)]
  refine List.ext_getElem? fun i => ?_
  by_cases hi : i < b.length
  case neg =>
    rw [List.getElem?_eq_none (by simp [descramble]; omega), List.getElem?_eq_none (by omega)]
  case pos =>
    have hgroup : i / qm < (scramble b c).length / qm := by
      rw [hcount]
      exact Nat.div_lt_of_lt_mul (by rw [Nat.mul_comm nu m, ← Nat.mul_assoc, Nat.mul_comm qm m]; omega)
    have hsoft := softBits_getElem? nm hpos (modulate nm qm (scramble b c)) i
    rw [modulate_getElem? nm hgroup, Option.map_some] at hsoft
    have hhard := hard_softdemod_point nm hqm (scramble b c) (i / qm) (Nat.mod_lt i hpos)
    rw [Nat.div_add_mod, scramble_getD hlen] at hhard
    have hbit : (c)[i]? = some (c.getD i false) := by simp [hlen ▸ hi]
    rw [List.getElem?_map, descramble_getElem? hsoft hbit, Option.map_some, hard_flip hneg hhard]
    simp [hi]

end Sys2Proof.DataPath

/-! SUPPORT. The lifecycle commands of the PIPE (R222 to R224): their checks, the allocation and what they write. -/

namespace Sys2Proof.PipeLifecycle

open Sys2Proof.Machine Sys2Proof.Config Sys2Proof.Claims Sys2Proof.CommandWords Sys2Proof.RaeFailures Sys2Proof.DciGrants

/-! ## PIPE_INIT (R222) -/

/-- R222: an argument of PIPE_INIT outside its range. -/
abbrev PipeArgsIllegal (pa : PipeArgs) : Prop :=
  pa.maxPrb.toNat < 1 ∨ 275 < pa.maxPrb.toNat ∨ pa.maxLayers.toNat < 1 ∨ 4 < pa.maxLayers.toNat ∨ pa.maxCw.toNat < 1 ∨
    2 < pa.maxCw.toNat

/-- R222: the checks line by line. -/
theorem pipeInitLines_guard (s : State) :
    guardLines 0 (pipeInitLines s) =
      if s.pipe.state ≠ .uninit then .error { code := .iiState, step := 0 }
      else if PipeArgsIllegal s.args.pa then .error { code := .iiInitArgs, step := 0 } else .ok () := by
  simp only [pipeInitLines, guardLines_cons, guardLines_nil, bne_iff_ne, Bool.or_eq_true, decide_eq_true_eq, or_assoc]
  rfl

theorem exec_initOf (role : Role) (s : State) : exec (initOf role) s = finish (pipeInitRule role s) := by
  cases role <;> rfl

/-- R17, R222: legal arguments are within the maxima, so only a scripted refusal fails. -/
theorem allocOk_pipeInit {s : State} (h : ¬ PipeArgsIllegal s.args.pa) :
    allocOk .pipe s.args.pa.maxPrb.toNat s.args.pa.maxLayers.toNat s = true ↔
      s.env.answers.alloc.head? ≠ some false :=
  allocOk_iff ((allocWithinMaxima_pipe _ _).mpr (by omega))

/-- Settles O45: the two checks, then the allocation. -/
theorem pipeInit : Obligations.PipeInit := by
  refine ⟨by decide, by decide, fun s role => ?_⟩
  have hguard := pipeInitLines_guard s
  rw [exec_initOf, pipeInitRule]
  split_ifs at hguard ⊢ with hstate hargs hrefused
  · exact finish_orRaise_error hguard s _
  · exact finish_orRaise_error hguard s _
  · rw [finish_orRaise_ok hguard]
    dsimp only
    rw [if_neg (mt (allocOk_pipeInit hargs).mp (not_not_intro hrefused))]
    exact finish_raised _ _
  · rw [finish_orRaise_ok hguard]
    dsimp only
    rw [if_pos ((allocOk_pipeInit hargs).mpr hrefused)]
    rfl

/-! ## PIPE_SET_CARRIER (R223) -/

/-- R223: the checks line by line. -/
theorem pipeSetCarrierLines_guard (s : State) :
    guardLines 0 (pipeSetCarrierLines s) =
      if s.pipe.state ≠ .ready ∧ s.pipe.state ≠ .carrierSet then .error { code := .iiState, step := 0 }
      else if CarrierIllegal s.args.car then .error { code := .iiCarrier, step := 0 } else .ok () := by
  simp only [pipeSetCarrierLines, guardLines_cons, guardLines_nil, carrierIllegal_iff, Bool.and_eq_true, bne_iff_ne]

/-- R17, R223: growth to a legal carrier is within the maxima, so only a scripted refusal fails. -/
theorem allocOk_growth {s : State} (hinv : unitsInv s = true) (h : ¬ CarrierIllegal s.args.car) :
    allocOk .pipe s.args.car.nprb.toNat s.pipe.capLayers.toNat s = true ↔ s.env.answers.alloc.head? ≠ some false := by
  obtain ⟨-, hlayers, -⟩ := pipe_caps_le ((unitsInv_iff s).mp hinv).1
  exact allocOk_iff ((allocWithinMaxima_pipe _ _).mpr ⟨by omega, hlayers⟩)

/-- Settles O46: the two checks, then the growth where the carrier exceeds the capacity. -/
theorem pipeSetCarrier : Obligations.PipeSetCarrier := by
  refine ⟨by decide, fun s hinv => ?_⟩
  have hguard := pipeSetCarrierLines_guard s
  split_ifs at hguard with hstate hcar
  · rw [if_pos hstate]
    exact finish_orRaise_error hguard s _
  · rw [if_neg hstate, if_pos hcar]
    exact finish_orRaise_error hguard s _
  · rw [if_neg hstate, if_neg hcar]
    refine (finish_orRaise_ok hguard s _).trans ?_
    split_ifs with hgrow halloc hrefused hrefused
    · exact absurd hrefused ((allocOk_growth hinv hcar).mp halloc)
    · rfl
    · exact finish_raised _ _
    · exact absurd ((allocOk_growth hinv hcar).mpr hrefused) halloc
    · rfl

/-! ## PIPE_FREE (R224) -/

/-- Settles O47: the rule has no check. -/
theorem pipeFree : Obligations.PipeFree := ⟨by decide, fun s => finish_done { s with pipe := PipeRegs.zero }⟩

end Sys2Proof.PipeLifecycle

/-! SUPPORT. The checks shared by ENCODE and DECODE (R225, R229): the model's lists of checks against the list of the rules,
and how the two commands end where a check fails or no codeword is enabled. -/

namespace Sys2Proof.TransferChecks

open Sys2Proof.Machine Sys2Proof.Config Sys2Proof.Claims Sys2Proof.CommandWords Sys2Proof.RaeFailures Sys2Proof.DciGrants
  Sys2Proof.ElementCounts

/-! ## The first failing line (R316) -/

/-- R310, R311: class and code of the first failing line of a list of checks. -/
def lineError (lines : List (Bool × ErrCode)) : Option (BitVec 3 × BitVec 8) :=
  (firstFailing lines).map fun c => (errClassNum c, errCodeNum c)

theorem lineError_nil : lineError [] = none := rfl

theorem lineError_cons {fails : Bool} {code : ErrCode} {rest : List (Bool × ErrCode)} {P : Prop} [Decidable P]
    {x : Option (BitVec 3 × BitVec 8)} (hP : fails = true ↔ P) (hrest : lineError rest = x) :
    lineError ((fails, code) :: rest) = if P then some (errClassNum code, errCodeNum code) else x := by
  simp only [lineError, firstFailing_cons, hP]
  split
  · rfl
  · exact hrest

theorem guardLines_of_lineError_none {lines : List (Bool × ErrCode)} (h : lineError lines = none) (step : BitVec 4) :
    guardLines step lines = .ok () :=
  (guardLines_ok_iff step lines).mpr (Option.map_eq_none_iff.mp h)

theorem guardLines_of_lineError_some {lines : List (Bool × ErrCode)} {cls : BitVec 3} {code : BitVec 8}
    (h : lineError lines = some (cls, code)) (step : BitVec 4) :
    ∃ c, guardLines step lines = .error { code := c, step := step } ∧ errClassNum c = cls ∧ errCodeNum c = code := by
  obtain ⟨c, hc, heq⟩ := Option.map_eq_some_iff.mp h
  obtain ⟨rfl, rfl⟩ := Prod.mk.inj heq
  exact ⟨c, (guardLines_error_iff step lines _).mpr ⟨hc, rfl⟩, rfl, rfl⟩

/-- R318: a command that begins with a list of checks ends in the failure of the first that fails. -/
theorem finish_of_lineError {lines : List (Bool × ErrCode)} {cls : BitVec 3} {code : BitVec 8}
    (h : lineError lines = some (cls, code)) (step : BitVec 4) (s : State) (k : Unit → CmdEnd) :
    finish (orRaise (guardLines step lines) s k) = .next (failed cls code step s) := by
  obtain ⟨c, hc, rfl, rfl⟩ := guardLines_of_lineError_some h step
  exact finish_orRaise_error hc s k

/-! ## `CheckGrant` (R225) -/

theorem any_le_iff (l : List Nat) (b : Nat) : (l.any fun n => decide (b ≤ n)) = true ↔ ∃ n ∈ l, b ≤ n := by
  simp

/-- R225 line 4: the packed carriers differ exactly when the carriers do. -/
theorem carrierMismatch_iff (role : Role) (a : SaRegs) (c : Carrier) :
    (role == .transmitter && (a.state == .noCarrier || packCar a.car != packCar c)) = true ↔
      role = .transmitter ∧ (a.state = .noCarrier ∨ a.car ≠ c) := by
  simp only [Bool.and_eq_true, Bool.or_eq_true, beq_iff_eq, bne_iff_ne, ne_eq, packCar_inj]

theorem bit01_eq (b : Bool) : bit01 b = b.toNat := by cases b <;> rfl

/-- R225: the first failing line of the model's list is the first of the rule's. -/
theorem lineError_checkGrant (role : Role) (s : State) : lineError (checkGrantLines role s) = checkGrantError role s := by
  unfold checkGrantLines checkGrantError
  refine lineError_cons bne_iff_ne ?_
  refine lineError_cons bne_iff_ne ?_
  refine lineError_cons (by simp only [Bool.or_eq_true, Bool.not_eq_true']) ?_
  refine lineError_cons (carrierMismatch_iff role s.sa s.pipe.car) ?_
  refine lineError_cons (any_le_iff _ _) ?_
  refine lineError_cons decide_eq_true_iff ?_
  refine lineError_cons (by simp only [decide_eq_true_eq, bit01_eq]) ?_
  refine lineError_cons (decide_eq_true_iff.trans List.length_eq_zero_iff) ?_
  refine lineError_cons (any_le_iff _ _) ?_
  refine lineError_cons (by simp only [Bool.or_eq_true, decide_eq_true_eq, toNat_eq_zero_iff]) ?_
  refine lineError_cons (by simp only [Bool.or_eq_true, decide_eq_true_eq, toNat_eq_zero_iff, bne_iff_ne]) ?_
  refine lineError_cons (ncgIllegal_iff _ _) ?_
  refine lineError_cons (by simp only [List.any_eq_true, portIllegal_iff]) ?_
  refine lineError_cons decide_eq_true_iff ?_
  refine lineError_cons Iff.rfl ?_
  exact lineError_cons Iff.rfl lineError_nil

/-! ## `CheckCodeword` (R229) -/

/-- R229: the model's G is the coded length. -/
theorem codedBits_eq (r : Records) : codedBits r = codedLength r := by rw [codedBits, codedLength, posList_length]

theorem lineError_checkCodeword (role : Role) (s : State) :
    lineError (checkCodewordLines role s) = checkCodewordError role s := by
  unfold checkCodewordLines checkCodewordError
  rw [codedBits_eq]
  refine lineError_cons (by rw [Bool.not_eq_true', ← Bool.not_eq_true, qmLegal_iff]) ?_
  refine lineError_cons (by simp only [Bool.or_eq_true, decide_eq_true_eq]; rfl) ?_
  refine lineError_cons (by simp only [Bool.and_eq_true, beq_iff_eq, bne_iff_ne]) ?_
  refine lineError_cons decide_eq_true_iff ?_
  exact lineError_cons (by simp only [Bool.or_eq_true, decide_eq_true_eq]) lineError_nil

theorem checkGrant_of_error_none {role : Role} {s : State} (h : checkGrantError role s = none) (step : BitVec 4) :
    checkGrant step role s = .ok () :=
  guardLines_of_lineError_none ((lineError_checkGrant role s).trans h) step

theorem checkCodeword_of_error_none {role : Role} {s : State} (h : checkCodewordError role s = none) (step : BitVec 4) :
    checkCodeword step role s = .ok () :=
  guardLines_of_lineError_none ((lineError_checkCodeword role s).trans h) step

/-! ## ENCODE (R230) -/

/-- R230: with the grant in order, ENCODE goes on with the codeword's checks where one is enabled. -/
theorem encodeRule_of_grant {s : State} (h : checkGrantError .transmitter s = none) (step : BitVec 4) :
    encodeRule step s = if s.recs.tb0.en then orRaise (checkCodeword step .transmitter s) s fun _ => encodeBody step s
      else .done s := by
  rw [encodeRule, checkGrant_of_error_none h, orRaise_ok]

/-- R230: with every check passed ENCODE is its body. -/
theorem encodeRule_of_checks {s : State} (hgrant : checkGrantError .transmitter s = none) (hen : s.recs.tb0.en = true)
    (hcw : checkCodewordError .transmitter s = none) (step : BitVec 4) : encodeRule step s = encodeBody step s := by
  rw [encodeRule_of_grant hgrant, if_pos hen, checkCodeword_of_error_none hcw, orRaise_ok]

/-- Settles O48: the two lists of checks, and the end without a codeword. -/
theorem encodeChecks : Obligations.EncodeChecks := by
  refine ⟨by decide, fun s => ⟨fun cls code h => ?_, fun hgrant hen => ?_, fun hgrant hen cls code h => ?_⟩⟩
  · exact finish_of_lineError ((lineError_checkGrant _ s).trans h) 0 s _
  · change finish (encodeRule 0 s) = _
    rw [encodeRule_of_grant hgrant, hen]
    exact finish_done s
  · change finish (encodeRule 0 s) = _
    rw [encodeRule_of_grant hgrant, if_pos hen]
    exact finish_of_lineError ((lineError_checkCodeword _ s).trans h) 0 s _

/-! ## DECODE (R250) -/

/-- R250: with the grant in order, DECODE goes on with the codeword's checks, or commits an empty result. -/
theorem decodeRule_of_grant {s : State} (h : checkGrantError .receiver s = none) :
    decodeRule s = if s.recs.tb0.en then orRaise (checkCodeword 0 .receiver s) s fun _ => decodeBody s
      else .done { s with rx := decodeNoCodeword s } := by
  rw [decodeRule, checkGrant_of_error_none h, orRaise_ok]

/-- R250: with every check passed DECODE is its body. -/
theorem decodeRule_of_checks {s : State} (hgrant : checkGrantError .receiver s = none) (hen : s.recs.tb0.en = true)
    (hcw : checkCodewordError .receiver s = none) : decodeRule s = decodeBody s := by
  rw [decodeRule_of_grant hgrant, if_pos hen, checkCodeword_of_error_none hcw, orRaise_ok]

/-- Settles O51: the two lists of checks, and the commit of no codeword. -/
theorem decodeChecks : Obligations.DecodeChecks := by
  refine ⟨by decide, fun s => ⟨fun cls code h => ?_, fun hgrant hen => ?_, fun hgrant hen cls code h => ?_⟩⟩
  · exact finish_of_lineError ((lineError_checkGrant _ s).trans h) 0 s _
  · change finish (decodeRule s) = _
    rw [decodeRule_of_grant hgrant, hen]
    exact finish_done { s with rx := decodeNoCodeword s }
  · change finish (decodeRule s) = _
    rw [decodeRule_of_grant hgrant, if_pos hen]
    exact finish_of_lineError ((lineError_checkCodeword _ s).trans h) 0 s _

end Sys2Proof.TransferChecks

/-! SUPPORT. The collaborators of ENCODE and DECODE (R231, R232, R252 to R254, R330, R334): the answer each call takes, and
how the two commands end where one fails. -/

namespace Sys2Proof.TransferFailures

open Sys2Proof.Machine Sys2Proof.Config Sys2Proof.Claims Sys2Proof.CommandFrames Sys2Proof.MemoryOrder
  Sys2Proof.TransferChecks

/-! ## Answers (R330) -/

theorem nextAnswer_of_head {α : Type} {script : List α} {x : α} (h : script.head? = some x) (free : Nat → α) (d : Nat) :
    nextAnswer script free d = x := by rw [nextAnswer, h, Option.getD_some]

theorem shapedBits_of_length {n : Nat} {b : List Bool} (h : b.length = n) : shapedBits n (some b) = some b := if_pos h

theorem shapedBits_eq_none {n : Nat} {ans : Option (List Bool)} (h : ∀ b, ans = some b → b.length ≠ n) :
    shapedBits n ans = none := by
  cases ans with
  | none => rfl
  | some b => exact if_neg (h b rfl)

/-! ## Seq.gen after other calls (R334) -/

/-- t is s after draws and calls of collaborators other than Seq.gen. -/
structure BeforeSeq (s t : State) : Prop where
  args : t.args = s.args
  script : t.env.answers.seqGen = s.env.answers.seqGen
  known : ∀ cellId rnti slot cw len,
    knownSequence t.env.history cellId rnti slot cw len = knownSequence s.env.history cellId rnti slot cw len

theorem encodeAfterFec_beforeSeq (s : State) : BeforeSeq s (encodeAfterFec s) :=
  ⟨rfl, rfl, fun _ _ _ _ _ => by simp [encodeAfterFec, knownSequence, List.findSome?_append]⟩

theorem decodeAfterChest_beforeSeq (s : State) : BeforeSeq s (decodeAfterChest s) :=
  ⟨rfl, rfl, fun _ _ _ _ _ => by simp [decodeAfterChest, knownSequence, List.findSome?_append]⟩

/-- R334: a call that does not fail gives the scripted sequence, if no earlier call gave another. -/
theorem seqGenAnswer_some {s t : State} (ht : BeforeSeq s t) {c : List Bool}
    (h : s.env.answers.seqGen.head? = some (some c)) (hagree : SequenceAgrees s c) :
    seqGenAnswer 0 (codedBits s.recs) t = some c := by
  rw [seqGenAnswer, ht.script, nextAnswer_of_head h, Option.map_some, ht.known, ht.args, codedBits_eq]
  obtain hnone | hsame := hagree
  · rw [hnone, Option.getD_none]
  · rw [hsame, Option.getD_some]

/-- R232, R253: the sequence taken from an answer of G bits. -/
theorem sequence_of_answer {s t : State} (ht : BeforeSeq s t) {c : List Bool}
    (h : s.env.answers.seqGen.head? = some (some c)) (hagree : SequenceAgrees s c) (hlen : c.length = codedLength s.recs) :
    shapedBits (codedBits s.recs) (seqGenAnswer 0 (codedBits s.recs) t) = some c := by
  rw [seqGenAnswer_some ht h hagree, codedBits_eq, shapedBits_of_length hlen]

/-- R330: no sequence is taken from a failing Seq.gen. -/
theorem sequence_of_failure {s t : State} (ht : BeforeSeq s t) (h : SeqGenFails s) :
    shapedBits (codedBits s.recs) (seqGenAnswer 0 (codedBits s.recs) t) = none := by
  obtain ⟨x, hx, hfails⟩ := h
  cases x with
  | none => rw [seqGenAnswer, ht.script, nextAnswer_of_head hx, Option.map_none]; rfl
  | some c =>
    obtain ⟨hagree, hlen⟩ := hfails c rfl
    rw [seqGenAnswer_some ht hx hagree, codedBits_eq]
    exact shapedBits_eq_none fun _ hb => Option.some.inj hb ▸ hlen

/-! ## Fec.encode, Chest.equalize and Fec.decode (R231, R252, R254) -/

theorem encodeCodedBits_of_head {s : State} {x : Option (List Bool)} (h : s.env.answers.fecEncode.head? = some x) :
    encodeCodedBits s = shapedBits (codedLength s.recs) x := by
  rw [encodeCodedBits, codedBits_eq]
  exact congrArg _ (nextAnswer_of_head h _ _)

/-- R252: the layers that a scripted answer gives, if it has the right shape. -/
theorem decodeLayers_of_shaped {s : State} {xh : List (List Sample)}
    (h : s.env.answers.equalize.head? = some (some xh)) (hshape : LayersShaped s xh) : decodeLayers s = some xh := by
  have hans : ∀ n, equalizeAnswer (advanceDraws n s) = some xh := fun n => nextAnswer_of_head h _ _
  rw [decodeLayers, hans]
  exact if_pos ⟨hshape.1, List.all_eq_true.mpr fun x hx => beq_iff_eq.mpr (hshape.2 x hx)⟩

theorem decodeLayers_of_failure {s : State} {x : Option (List (List Sample))}
    (h : s.env.answers.equalize.head? = some x) (hfails : ∀ xh, x = some xh → ¬ LayersShaped s xh) :
    decodeLayers s = none := by
  have hans : ∀ n, equalizeAnswer (advanceDraws n s) = x := fun n => nextAnswer_of_head h _ _
  rw [decodeLayers, hans]
  cases x with
  | none => rfl
  | some xh =>
    exact if_neg fun hs => hfails xh rfl ⟨hs.1, fun y hy => beq_iff_eq.mp (List.all_eq_true.mp hs.2 y hy)⟩

theorem fecDecodeAnswer_of_head {s : State} {x : Option (List Bool × Bool)} (h : s.env.answers.fecDecode.head? = some x) :
    fecDecodeAnswer (decodeAfterSeq s) = x := nextAnswer_of_head h _ _

theorem decodePayload_of_length {s : State} {bits : List Bool} {ok : Bool}
    (h : s.env.answers.fecDecode.head? = some (some (bits, ok))) (hlen : bits.length = s.recs.tb0.tbs.toNat) :
    decodePayload s = some (bits, ok) := by
  rw [decodePayload, fecDecodeAnswer_of_head h]
  exact if_pos hlen

theorem decodePayload_of_failure {s : State} {x : Option (List Bool × Bool)}
    (h : s.env.answers.fecDecode.head? = some x)
    (hfails : ∀ bits ok, x = some (bits, ok) → bits.length ≠ s.recs.tb0.tbs.toNat) :
    decodePayload s = none := by
  rw [decodePayload, fecDecodeAnswer_of_head h]
  cases x with
  | none => rfl
  | some r => exact if_neg (hfails r.1 r.2 rfl)

/-! ## The bodies where a collaborator fails (R330) -/

/-- R330: a rule run from s ends in CI_COLLAB, step 0, with nothing but the environment touched. -/
def EndsInCollab (s : State) (r : CmdEnd) : Prop :=
  ∃ t, r = .raised { code := .ciCollab, step := 0 } t ∧ SameButEnv s t

theorem encodeBody_of_failure {s : State} (h : EncodeCollabFails s) : EndsInCollab s (encodeBody 0 s) := by
  unfold encodeBody
  obtain ⟨x, hx, hfails⟩ | ⟨⟨b, hb, hlen⟩, hseq⟩ := h
  · rw [encodeCodedBits_of_head hx, shapedBits_eq_none hfails]
    exact ⟨_, rfl, encodeAfterFec_same s⟩
  · rw [encodeCodedBits_of_head hb, shapedBits_of_length hlen]
    have hnone : encodeSequence s = none := sequence_of_failure (encodeAfterFec_beforeSeq s) hseq
    rw [hnone]
    exact ⟨_, rfl, encodeAfterSeq_same s⟩

theorem decodeBody_of_failure {s : State} (h : DecodeCollabFails s) : EndsInCollab s (decodeBody s) := by
  unfold decodeBody
  obtain ⟨x, hx, hfails⟩ | ⟨⟨xh, hxh, hshape⟩, hrest⟩ := h
  · rw [decodeLayers_of_failure hx hfails]
    exact ⟨_, rfl, decodeAfterChest_same s⟩
  rw [decodeLayers_of_shaped hxh hshape]
  obtain hseq | ⟨⟨c, hc, hagree, hlen⟩, x, hx, hfails⟩ := hrest
  · have hnone : decodeSequence s = none := sequence_of_failure (decodeAfterChest_beforeSeq s) hseq
    rw [hnone]
    exact ⟨_, rfl, decodeAfterSeq_same s⟩
  · have hsome : decodeSequence s = some c := sequence_of_answer (decodeAfterChest_beforeSeq s) hc hagree hlen
    rw [hsome, decodePayload_of_failure hx hfails]
    exact ⟨_, rfl, decodeAfterFec_same s xh c⟩

/-! ## Every end (R230, R250) -/

/-- R230, R250: a rule run from s succeeds, or fails with step 0 and nothing but the environment touched. -/
def SucceedsOrLeavesAll (s : State) : CmdEnd → Prop
  | .done t => t.sys = s.sys
  | .raised e t => e.step = 0 ∧ SameButEnv s t

theorem leavesAll_of_guard {s : State} {lines : List (Bool × ErrCode)} {k : Unit → CmdEnd}
    (hk : SucceedsOrLeavesAll s (k ())) : SucceedsOrLeavesAll s (orRaise (guardLines 0 lines) s k) := by
  obtain ⟨h, -⟩ | ⟨c, h, -⟩ := guardLines_cases 0 lines <;> rw [h]
  · exact hk
  · exact ⟨rfl, .refl s⟩

theorem encodeBody_leavesAll (s : State) : SucceedsOrLeavesAll s (encodeBody 0 s) := by
  unfold encodeBody
  split
  · exact ⟨rfl, encodeAfterFec_same s⟩
  · split
    · exact ⟨rfl, encodeAfterSeq_same s⟩
    · rfl

theorem encodeRule_leavesAll (s : State) : SucceedsOrLeavesAll s (encodeRule 0 s) := by
  refine leavesAll_of_guard ?_
  split
  · exact leavesAll_of_guard (encodeBody_leavesAll s)
  · rfl

theorem decodeBody_leavesAll (s : State) : SucceedsOrLeavesAll s (decodeBody s) := by
  unfold decodeBody
  split
  · exact ⟨rfl, decodeAfterChest_same s⟩
  next xh _ =>
    split
    · exact ⟨rfl, decodeAfterSeq_same s⟩
    next c _ =>
      split
      · exact ⟨rfl, decodeAfterFec_same s xh c⟩
      · exact CommandEnds.decodeAfterFec_sys s xh c

theorem decodeRule_leavesAll (s : State) : SucceedsOrLeavesAll s (decodeRule s) := by
  refine leavesAll_of_guard ?_
  split
  · exact leavesAll_of_guard (decodeBody_leavesAll s)
  · rfl

/-! ## The commands (R318, R330) -/

/-- R318: a failure that touched nothing but the environment. -/
theorem finishState_raised_same {s t : State} (e : Raised) (h : SameButEnv s t) :
    finishState (.raised e t) =
      { failed (errClassNum e.code) (errCodeNum e.code) e.step s with env := (finishState (.raised e t)).env } := by
  obtain ⟨x, rfl⟩ := h
  rfl

theorem SucceedsOrLeavesAll.finishState_eq {s : State} {r : CmdEnd} (h : SucceedsOrLeavesAll s r) :
    (finishState r).sys = (completed s).sys ∨
      ∃ cls code, finishState r = { failed cls code 0 s with env := (finishState r).env } := by
  cases r with
  | done t => exact .inl (congrArg doneFlags h)
  | raised e t =>
    obtain ⟨hstep, hsame⟩ := h
    exact .inr ⟨_, _, hstep ▸ finishState_raised_same e hsame⟩

theorem EndsInCollab.finishState_eq {s : State} {r : CmdEnd} (h : EndsInCollab s r) :
    finishState r = { failed 4 0x82 0 s with env := (finishState r).env } := by
  obtain ⟨t, rfl, ht⟩ := h
  exact finishState_raised_same _ ht

/-- Settles O50: both commands by the ends of their rules, and by their bodies where the checks pass. -/
theorem failedTransferLeavesAll : Obligations.FailedTransferLeavesAll := by
  rintro s i (rfl | rfl)
  · refine ⟨finishState (encodeRule 0 s), rfl, (encodeRule_leavesAll s).finishState_eq,
      fun _ hgrant hen hcw hfails => ?_, nofun⟩
    rw [encodeRule_of_checks hgrant hen hcw]
    exact (encodeBody_of_failure hfails).finishState_eq
  · refine ⟨finishState (decodeRule s), rfl, (decodeRule_leavesAll s).finishState_eq, nofun,
      fun _ hgrant hen hcw hfails => ?_⟩
    rw [decodeRule_of_checks hgrant hen hcw]
    exact (decodeBody_of_failure hfails).finishState_eq

end Sys2Proof.TransferFailures

/-! SUPPORT. ENCODE with every check passed and every collaborator answering in shape (R230 to R243): the writes, the payload
and the two calls. -/

namespace Sys2Proof.EncodeData

open Sys2Proof.Machine Sys2Proof.Config Sys2Proof.Claims Sys2Proof.RaeFailures Sys2Proof.DataPositions Sys2Proof.DataPath
  Sys2Proof.TransferChecks Sys2Proof.TransferFailures

/-! ## The slot buffer after a list of writes (R71) -/

/-- An element that writes name, all of them with one value. -/
theorem bankRead_slotWriteAll_mem {n : Nat} (t : Vector (Mem Sample) 4) {ws : List SlotWrite} {w : SlotWrite} (hw : w ∈ ws)
    (ha : w.a < 4)
    (hv : ∀ w' ∈ ws, w'.a = w.a → gridAddr n w'.l w'.k = gridAddr n w.l w.k → w'.v = w.v) :
    bankRead (slotWriteAll n t ws) w.a (gridAddr n w.l w.k) = some w.v := by
  rw [bankRead_slotWriteAll n t ws _ _ ha, lastSlot]
  cases hfind : ws.reverse.find? fun x => x.a == w.a && gridAddr n x.l x.k == gridAddr n w.l w.k with
  | none => simpa using List.find?_eq_none.mp hfind w (List.mem_reverse.mpr hw)
  | some w' =>
    have hmatch := List.find?_some hfind
    simp only [Bool.and_eq_true, beq_iff_eq] at hmatch
    rw [Option.map_some, Option.some_or, hv w' (List.mem_reverse.mp (List.mem_of_find?_eq_some hfind)) hmatch.1 hmatch.2]

/-- R71: the element address tells symbol and subcarrier. -/
theorem gridAddr_inj {n l k l' k' : Nat} (hk : k < 12 * n) (hk' : k' < 12 * n) (h : gridAddr n l k = gridAddr n l' k') :
    l = l' ∧ k = k' := by
  have hpair : ∀ l k, k < 12 * n → gridAddr n l k / (12 * n) = l ∧ gridAddr n l k % (12 * n) = k := fun l k hk => by
    rw [gridAddr, Nat.mul_comm]
    exact mul_add_div_mod hk
  obtain ⟨hl, hr⟩ := hpair l k hk
  obtain ⟨hl', hr'⟩ := hpair l' k' hk'
  rw [h] at hl hr
  exact ⟨hl.symm.trans hl', hr.symm.trans hr'⟩

/-! ## The writes of ENCODE (R232, R240 to R243) -/

/-- R241, R242: the writes of a layer are symbol nu·i + lam at position i, on antenna lam. -/
theorem mem_layerWrites {nm : Numerics} {pos : List (Nat × Nat)} {d : List Sample} {nu lam : Nat} {w : SlotWrite} :
    w ∈ layerWrites nm pos d nu lam ↔
      ∃ i l k, pos[i]? = some (l, k) ∧ w = { a := lam, l := l, k := k, v := d.getD (nu * i + lam) nm.zero } := by
  rw [layerWrites, List.mem_iff_getElem?]
  refine exists_congr fun i => ?_
  rw [List.getElem?_zipWith_eq_some]
  constructor
  · rintro ⟨⟨l, k⟩, v, hpos, hv, rfl⟩
    obtain ⟨hi, -⟩ := List.getElem?_eq_some_iff.mp hpos
    simp only [layerOf, List.getElem?_map, List.getElem?_range hi, Option.map_some, Option.some.injEq] at hv
    exact ⟨l, k, hpos, hv ▸ rfl⟩
  · rintro ⟨l, k, hpos, rfl⟩
    obtain ⟨hi, -⟩ := List.getElem?_eq_some_iff.mp hpos
    exact ⟨(l, k), _, hpos, by simp only [layerOf, List.getElem?_map, List.getElem?_range hi, Option.map_some], rfl⟩

theorem mem_encodeWrites {nm : Numerics} {r : Records} {b c : List Bool} {w : SlotWrite} :
    w ∈ encodeWrites nm r b c ↔ ∃ lam < r.gr.nlayers.toNat, ∃ i l k, (posList (patternOf r))[i]? = some (l, k) ∧
      w = { a := lam, l := l, k := k,
            v := (modulate nm r.tb0.qm.toNat (scramble b c)).getD (r.gr.nlayers.toNat * i + lam) nm.zero } := by
  simp only [encodeWrites, List.mem_flatMap, List.mem_range, mem_layerWrites]

/-- R232, R240: symbol i of the modulated scrambled stream. -/
theorem modulate_scramble_getD {b c : List Bool} (h : c.length = b.length) {qm i : Nat} (hi : i < b.length / qm) :
    (modulate num qm (scramble b c)).getD i num.zero = symbolOf b c qm i := by
  have hbits : groupPoint qm (scramble b c) i = gridPoint qm (scrambledBit b c qm i) :=
    congrArg (gridPoint qm) (funext fun j => scramble_getD h _)
  rw [List.getD_eq_getElem?_getD, modulate_getElem? num (by rwa [scramble_length h]), Option.getD_some, hbits]
  rfl

/-- R240, R241: as many symbols as positions on all layers. -/
theorem codedLength_div_order {r : Records} (h : 0 < r.tb0.qm.toNat) :
    codedLength r / r.tb0.qm.toNat = r.gr.nlayers.toNat * (posList (patternOf r)).length := by
  rw [codedLength, Nat.mul_right_comm, Nat.mul_div_cancel _ h, Nat.mul_comm]

theorem order_pos_of_checkCodeword {role : Role} {s : State} (h : checkCodewordError role s = none) :
    0 < s.recs.tb0.qm.toNat := by
  obtain ⟨hqm, -⟩ := checkCodeword_ok (checkCodeword_of_error_none h 0)
  obtain hqm | hqm | hqm | hqm := (qmLegal_iff _).mp hqm <;> rw [hqm] <;> decide

/-- R225, R228: a data position lies inside the carrier of the SA. -/
theorem dataPosition_lt {s : State} (h : checkGrantError .transmitter s = none) {l k : Nat}
    (hlk : (l, k) ∈ posList (patternOf s.recs)) : k < 12 * s.sa.car.nprb.toNat := by
  obtain ⟨-, -, -, hprb⟩ := SlotGrid.grant_fits (checkGrant_of_error_none h 0)
  obtain ⟨-, hn, -⟩ := (mem_posList _ l k).mp hlk
  have := hprb _ hn
  omega

/-- R8, R225: the layers of a grant in order are antennas of the slot buffer. -/
theorem layers_le_four {s : State} (hinv : unitsInv s = true) (h : checkGrantError .transmitter s = none) :
    s.recs.gr.nlayers.toNat ≤ 4 := by
  have hok := checkGrant_of_error_none h 0
  obtain ⟨-, hlayers, -⟩ := SlotGrid.grant_fits hok
  obtain ⟨-, -, -, -, hsa, -⟩ := checkGrant_ok hok
  obtain ⟨hvalid, -⟩ := ((saInv_iff _).mp ((unitsInv_iff s).mp hinv).2).2.1 (hsa rfl).1
  obtain ⟨-, -, -, -, hports⟩ := (carrierValid_iff _).mp hvalid
  omega

/-- R242, R245: layer lam, position i, holds symbol nu·i + lam after the writes. -/
theorem encodeWrites_placed {s : State} {b c : List Bool} (hinv : unitsInv s = true)
    (hgrant : checkGrantError .transmitter s = none) (hqm : 0 < s.recs.tb0.qm.toNat) (hb : b.length = codedLength s.recs)
    (hc : c.length = codedLength s.recs) {lam i l k : Nat} (hlam : lam < s.recs.gr.nlayers.toNat)
    (hpos : (posList (patternOf s.recs))[i]? = some (l, k)) :
    bankRead (slotWriteAll s.sa.car.nprb.toNat s.mem.slotbuf (encodeWrites num s.recs b c)) lam
        (gridAddr s.sa.car.nprb.toNat l k) =
      some (symbolOf b c s.recs.tb0.qm.toNat (s.recs.gr.nlayers.toNat * i + lam)) := by
  obtain ⟨hi, -⟩ := List.getElem?_eq_some_iff.mp hpos
  have hsym : s.recs.gr.nlayers.toNat * i + lam < b.length / s.recs.tb0.qm.toNat := by
    rw [hb, codedLength_div_order hqm]
    exact mul_add_lt_mul hi hlam
  rw [← modulate_scramble_getD (hc.trans hb.symm) hsym]
  refine bankRead_slotWriteAll_mem _ (mem_encodeWrites.mpr ⟨lam, hlam, i, l, k, hpos, rfl⟩)
    (hlam.trans_le (layers_le_four hinv hgrant)) fun w' hw' ha haddr => ?_
  obtain ⟨lam', -, i', l', k', hpos', rfl⟩ := mem_encodeWrites.mp hw'
  obtain rfl : lam' = lam := ha
  obtain ⟨rfl, rfl⟩ : l' = l ∧ k' = k := gridAddr_inj (dataPosition_lt hgrant (List.mem_of_getElem? hpos'))
    (dataPosition_lt hgrant (List.mem_of_getElem? hpos)) haddr
  obtain rfl : i = i' := (List.getElem?_inj hi (posList_nodup _)).mp (hpos.trans hpos'.symm)
  rfl

/-- R242: every write is to a data element. -/
theorem encodeWrites_dataElement {s : State} {b c : List Bool} {w : SlotWrite} (h : w ∈ encodeWrites num s.recs b c) :
    DataElement s w.a (gridAddr s.sa.car.nprb.toNat w.l w.k) := by
  obtain ⟨lam, hlam, i, l, k, hpos, rfl⟩ := mem_encodeWrites.mp h
  exact ⟨hlam, l, k, List.mem_of_getElem? hpos, rfl⟩

/-! ## The payload and the calls (R230 to R232) -/

theorem bitsFrom_getElem? {m : Mem Bool} {d len i : Nat} {x : Bool} (hi : i < len) (hx : memRead m i = some x) :
    (bitsFrom m d len)[i]? = some x := by
  simp [bitsFrom, hi, hx]

theorem payloadBits_isPayload (s : State) : IsPayload s (payloadBits s) :=
  ⟨bitsFrom_length _ _ _, fun _ hi _ hx => bitsFrom_getElem? (by simpa [payloadBits] using hi) hx⟩

/-- R67: the two calls, with the scripted answers. -/
theorem encodeAfterSeq_history {s : State} {b c : List Bool} (hfec : s.env.answers.fecEncode.head? = some (some b))
    (hseq : s.env.answers.seqGen.head? = some (some c)) (hagree : SequenceAgrees s c) :
    (encodeAfterSeq s).env.history = s.env.history ++ encodeCalls s (payloadBits s) b c := by
  have hb : ∀ n, fecEncodeAnswer (advanceDraws n s) = some b := fun n => nextAnswer_of_head hfec _ _
  have hc := seqGenAnswer_some (encodeAfterFec_beforeSeq s) hseq hagree
  rw [encodeAfterSeq, seqGenCalled_eq, hc, recordCall_env]
  simp only [encodeAfterFec, fecEncodeCalled_eq, recordCall_env, recordCall_args, advanceDraws_env, advanceDraws_args, hb,
    codedBits_eq, encodeCalls, List.append_assoc, List.cons_append, List.nil_append]

/-- R230: the end of ENCODE with every answer in shape. -/
theorem encodeBody_of_answers {s : State} {b c : List Bool} (hfec : s.env.answers.fecEncode.head? = some (some b))
    (hseq : s.env.answers.seqGen.head? = some (some c)) (hagree : SequenceAgrees s c) (hb : b.length = codedLength s.recs)
    (hc : c.length = codedLength s.recs) (step : BitVec 4) :
    encodeBody step s = .done (putSlot (encodeWrites num s.recs b c) (encodeAfterSeq s)) := by
  have hsome : encodeSequence s = some c := sequence_of_answer (encodeAfterFec_beforeSeq s) hseq hagree hc
  rw [encodeBody, encodeCodedBits_of_head hfec, shapedBits_of_length hb, hsome]

/-- Settles O49: the writes of the body, element by element, and its calls. -/
theorem encodeCompletes : Obligations.EncodeCompletes := by
  intro s b c hinv hgrant hen hcw hfec hseq hagree hb hc
  refine ⟨completed (putSlot (encodeWrites num s.recs b c) (encodeAfterSeq s)), payloadBits s, ?_, rfl,
    fun lam hlam i l k hpos => ?_, fun a _ addr hno => ?_, payloadBits_isPayload s, ?_⟩
  · change finish (encodeRule 0 s) = _
    rw [encodeRule_of_checks hgrant hen hcw, encodeBody_of_answers hfec hseq hagree hb hc]
    exact finish_done _
  · exact encodeWrites_placed hinv hgrant (order_pos_of_checkCodeword hcw) hb hc hlam hpos
  · exact bankRead_slotWriteAll_other _ _ _ _ _ fun w hw hwa => hno (hwa.1 ▸ hwa.2 ▸ encodeWrites_dataElement hw)
  · exact encodeAfterSeq_history hfec hseq hagree

end Sys2Proof.EncodeData

/-! SUPPORT. DECODE with every check passed and every collaborator answering in shape (R250 to R254): the samples handed to
the equaliser, the soft bits handed to the decoder, the commit and the three calls. -/

namespace Sys2Proof.DecodeData

open Sys2Proof.Machine Sys2Proof.Config Sys2Proof.Claims Sys2Proof.RaeFailures Sys2Proof.CommandFrames Sys2Proof.DataPath
  Sys2Proof.TransferChecks Sys2Proof.TransferFailures

/-! ## Extraction (R251) -/

/-- R61: a defined element among the places is handed over as it is. -/
theorem samplesAt_getElem? {n : Nat} {t : Vector (Mem Sample) n} {d i a addr : Nat} {places : List (Nat × Nat)} {x : Sample}
    (hi : places[i]? = some (a, addr)) (hx : bankRead t a addr = some x) : (samplesAt t d places)[i]? = some x := by
  simp [samplesAt, hi, hx]

theorem extracted_received (s : State) : Received s (extracted s) := by
  refine ⟨by simp [extracted], fun x hx => ?_, fun a i l k x ha hi hx => ?_⟩
  · obtain ⟨a, -, rfl⟩ := List.mem_map.mp hx
    rw [samplesAt_length, rxPlaces, List.length_map]
  · have hport : a < s.pipe.car.nports.toNat := by simpa [extracted] using ha
    have hplace : (rxPlaces s.pipe.car (posList (patternOf s.recs)) a)[i]? =
        some (a, gridAddr s.pipe.car.nprb.toNat l k) := by rw [rxPlaces, List.getElem?_map, hi, Option.map_some]
    rw [extracted, List.getElem?_map, List.getElem?_range hport, Option.map_some, Option.bind_some]
    exact samplesAt_getElem? hplace hx

/-! ## Layers and soft bits (R252, R253) -/

theorem decodeStream_length (s : State) (xh : List (List Sample)) :
    (decodeStream s xh).length = s.recs.gr.nlayers.toNat * (posList (patternOf s.recs)).length :=
  layersToStream_length _ _ _ _

theorem decodeStream_unmapped {s : State} {xh : List (List Sample)} (h : LayersShaped s xh) :
    Unmapped s xh (decodeStream s xh) := by
  obtain ⟨hlayers, hlen⟩ := h
  refine ⟨decodeStream_length s xh, fun lam hlam i hi => ?_⟩
  have hx : xh[lam]? = some xh[lam] := List.getElem?_eq_getElem _
  have hy : xh[lam][i]? = some (xh[lam][i]'(hlen _ (List.getElem_mem _) ▸ hi)) := List.getElem?_eq_getElem _
  rw [decodeStream, layersToStream_getElem? hi hlam hx hy, hx, Option.bind_some, hy]

theorem decodeSoft_softBitsOf {s : State} {xh : List (List Sample)} {c : List Bool} (hqm : 0 < s.recs.tb0.qm.toNat)
    (hc : c.length = codedLength s.recs) : SoftBitsOf s (decodeStream s xh) c (decodeSoft s xh c) := by
  have hbits : (decodeStream s xh).length * s.recs.tb0.qm.toNat = codedLength s.recs := by
    rw [decodeStream_length, codedLength]
    ring
  have hlen : (decodeSoft s xh c).length = codedLength s.recs := by
    rw [decodeSoft, descramble, List.length_zipWith, softBits_length, hbits, hc, Nat.min_self]
  refine ⟨hlen, fun i x hx hi => ?_⟩
  have hbit : (c)[i]? = some (c.getD i false) := by simp [hc ▸ hlen ▸ hi]
  have hsoft := softBits_getElem? num hqm (decodeStream s xh) i
  rw [hx, Option.map_some] at hsoft
  exact descramble_getElem? hsoft hbit

/-! ## The commit (R254) -/

theorem storeBits_append_singleton (m : Mem Bool) (bits : List Bool) (x : Bool) :
    storeBits m (bits ++ [x]) = memWrite (storeBits m bits) bits.length x := by
  simp [storeBits, memWriteAll, List.zipIdx_append]

/-- R72, R254: the stored bits, and behind them the old ones. -/
theorem memRead_storeBits (m : Mem Bool) (bits : List Bool) (i : Nat) :
    memRead (storeBits m bits) i = bits[i]?.or (memRead m i) := by
  induction bits using List.reverseRecOn with
  | nil => rfl
  | append_singleton bits x ih =>
    rw [storeBits_append_singleton, memRead_memWrite, ih]
    split
    case isTrue hi => simp [hi]
    case isFalse hi =>
      have hsame : (bits ++ [x])[i]? = bits[i]? := by
        rw [List.getElem?_append]
        split
        · rfl
        · rw [List.getElem?_eq_none (by simp; omega), List.getElem?_eq_none (by omega)]
      rw [hsame]

/-- R254: the first bit array holds the stored bits, the second is as before. -/
theorem decodeCommit_rxpayload (bits : List Bool) (rx : RxRegs) (s : State) :
    (decodeCommit bits rx s).mem.rxpayload[0] = storeBits s.mem.rxpayload[0] bits ∧
      (decodeCommit bits rx s).mem.rxpayload[1] = s.mem.rxpayload[1] :=
  ⟨Vector.getElem_set_self (by decide), Vector.getElem_set_ne (by decide) (by decide) (by decide)⟩

/-! ## The calls (R252 to R254) -/

/-- R67: the three calls, with the scripted answers. -/
theorem decodeAfterFec_history {s : State} {xh : List (List Sample)} {c bits : List Bool} {ok : Bool}
    (heq : s.env.answers.equalize.head? = some (some xh)) (hseq : s.env.answers.seqGen.head? = some (some c))
    (hagree : SequenceAgrees s c) (hfec : s.env.answers.fecDecode.head? = some (some (bits, ok))) :
    (decodeAfterFec s xh c).env.history =
      s.env.history ++ decodeCalls s (extracted s) xh c (decodeSoft s xh c) (bits, ok) := by
  have hxh : ∀ n, equalizeAnswer (advanceDraws n s) = some xh := fun n => nextAnswer_of_head heq _ _
  have hc := seqGenAnswer_some (decodeAfterChest_beforeSeq s) hseq hagree
  rw [decodeAfterFec, fecDecodeCalled_eq, fecDecodeAnswer_of_head hfec, recordCall_env, decodeAfterSeq, seqGenCalled_eq, hc,
    recordCall_env]
  simp only [decodeAfterChest, equalizeCalled_eq, recordCall_env, recordCall_args, advanceDraws_env, advanceDraws_args,
    advanceDraws_mem, advanceDraws_recs, hxh, codedBits_eq, decodeCalls, List.append_assoc, List.cons_append,
    List.nil_append]

/-- R250: the end of DECODE with every answer in shape. -/
theorem decodeBody_of_answers {s : State} {xh : List (List Sample)} {c bits : List Bool} {ok : Bool}
    (heq : s.env.answers.equalize.head? = some (some xh)) (hshape : LayersShaped s xh)
    (hseq : s.env.answers.seqGen.head? = some (some c)) (hagree : SequenceAgrees s c) (hc : c.length = codedLength s.recs)
    (hfec : s.env.answers.fecDecode.head? = some (some (bits, ok))) (hbits : bits.length = s.recs.tb0.tbs.toNat) :
    decodeBody s = .done (decodeCommit bits (decodeResult s xh ok) (decodeAfterFec s xh c)) := by
  have hsome : decodeSequence s = some c := sequence_of_answer (decodeAfterChest_beforeSeq s) hseq hagree hc
  rw [decodeBody, decodeLayers_of_shaped heq hshape, hsome, decodePayload_of_length hfec hbits]

/-- Settles O52: the samples, the soft bits and the commit of the body, and its calls. -/
theorem decodeCompletes : Obligations.DecodeCompletes := by
  intro s xh c bits ok hgrant hen hcw heq hlayers hsamples hseq hagree hc hfec hbits
  have hshape : LayersShaped s xh := ⟨hlayers, hsamples⟩
  have hbody := decodeBody_of_answers heq hshape hseq hagree hc hfec hbits
  have hhistory := decodeAfterFec_history heq hseq hagree hfec
  obtain ⟨e, he⟩ := decodeAfterFec_same s xh c
  rw [he] at hbody hhistory
  obtain ⟨hfirst, hsecond⟩ := decodeCommit_rxpayload bits (decodeResult s xh ok) { s with env := e }
  refine ⟨completed (decodeCommit bits (decodeResult s xh ok) { s with env := e }), extracted s, decodeStream s xh,
    decodeSoft s xh c, ?_, rfl, extracted_received s, decodeStream_unmapped hshape,
    decodeSoft_softBitsOf (EncodeData.order_pos_of_checkCodeword hcw) hc, rfl, fun i => ?_, hsecond, hhistory⟩
  · change finish (decodeRule s) = _
    rw [decodeRule_of_checks hgrant hen hcw, hbody]
    exact finish_done _
  · exact (congrArg (memRead · i) hfirst).trans (memRead_storeBits _ _ i)

end Sys2Proof.DecodeData

/-! SUPPORT. The configuration of the SA and the zeroing of its slot buffer (R271 to R273): the checks, the growth of the
capacities, and which elements BASE_ZERO writes. -/

namespace Sys2Proof.SlotConfiguration

open Sys2Proof.Machine Sys2Proof.Config Sys2Proof.Claims Sys2Proof.CommandWords Sys2Proof.RaeFailures Sys2Proof.DciGrants
  Sys2Proof.EncodeData

/-! ## Checks of one line (R316) -/

/-- R316: a check of one line. -/
theorem guardLines_single {fails : Bool} {P : Prop} [Decidable P] (h : fails = true ↔ P) (step : BitVec 4) (code : ErrCode) :
    guardLines step [(fails, code)] = if P then .error { code := code, step := step } else .ok () := by
  simp only [guardLines_cons, guardLines_nil, h]

/-- R316, R318: a command with one check fails by it or goes on. -/
theorem finish_single {fails : Bool} {P : Prop} [Decidable P] (h : fails = true ↔ P) (code : ErrCode) (s : State)
    (k : Unit → CmdEnd) :
    finish (orRaise (guardLines 0 [(fails, code)]) s k) =
      if P then .next (failed (errClassNum code) (errCodeNum code) 0 s) else finish (k ()) := by
  rw [guardLines_single h]
  split
  · exact finish_orRaise_error rfl s k
  · rfl

/-! ## SA_SET_CARRIER (R271) -/

/-- R271: the larger of two values, as the growth of the second to the first. -/
theorem maxBits_eq {n : Nat} (a b : BitVec n) : maxBits a b = if b.toNat < a.toNat then a else b := by
  unfold maxBits
  split_ifs with h h' h'
  · omega
  · rfl
  · rfl
  · exact BitVec.eq_of_toNat_eq (by omega)

theorem lt_maxBits_iff {n : Nat} (a b : BitVec n) : b.toNat < (maxBits a b).toNat ↔ b.toNat < a.toNat := by
  rw [maxBits_eq]
  split <;> omega

theorem maxBits_le {n m : Nat} {a b : BitVec n} (ha : a.toNat ≤ m) (hb : b.toNat ≤ m) : (maxBits a b).toNat ≤ m := by
  unfold maxBits
  split <;> assumption

/-- R17, R271: growth to a legal carrier is within the maxima, so only a scripted refusal fails. -/
theorem allocOk_saGrowth {s : State} (hinv : unitsInv s = true) (h : ¬ CarrierIllegal s.args.car) :
    allocOk .sa (maxBits s.args.car.nprb s.sa.capPrb).toNat (maxBits s.args.car.nports s.sa.capPorts).toNat s = true ↔
      s.env.answers.alloc.head? ≠ some false := by
  obtain ⟨hprb, hports⟩ := sa_caps_le ((unitsInv_iff s).mp hinv).2
  exact allocOk_iff ((allocWithinMaxima_sa _ _).mpr ⟨maxBits_le (by omega) hprb, maxBits_le (by omega) hports⟩)

/-- Settles O53: the check, then the growth where the carrier exceeds a capacity. -/
theorem saSetCarrier : Obligations.SaSetCarrier := by
  refine ⟨by decide, fun s hinv => ?_⟩
  change finish _ = _
  rw [finish_single (carrierIllegal_iff s.args.car)]
  dsimp only
  split
  case isTrue => rfl
  case isFalse hcar =>
    simp only [lt_maxBits_iff]
    split
    case isTrue hgrow =>
      have halloc := allocOk_saGrowth hinv hcar
      by_cases hrefused : s.env.answers.alloc.head? = some false
      · rw [if_pos hrefused, if_neg (mt halloc.mp (not_not_intro hrefused))]
        exact finish_raised _ _
      · rw [if_neg hrefused, if_pos (halloc.mpr hrefused), maxBits_eq, maxBits_eq]
        rfl
    case isFalse => rfl

/-! ## SA_SET_CORESET (R272) -/

/-- Settles O54: the check, then the copy. -/
theorem saSetCoreset : Obligations.SaSetCoreset := by
  refine ⟨by decide, fun s => ?_⟩
  change finish _ = _
  rw [finish_single (coresetIllegal_iff s.args.cs)]
  split <;> rfl

/-! ## BASE_ZERO (R273) -/

theorem mem_baseZeroWrites {nm : Numerics} {c : Carrier} {w : SlotWrite} :
    w ∈ baseZeroWrites nm c ↔ ∃ a < c.nports.toNat, ∃ l < nsymb c.cp, ∃ k < 12 * c.nprb.toNat,
      w = { a := a, l := l, k := k, v := nm.zero } := by
  simp only [baseZeroWrites, zeroWrites, List.mem_flatMap, List.mem_map, List.mem_range, eq_comm]

/-- R71: every address below the size of a grid is that of a symbol and a subcarrier. -/
theorem exists_gridAddr {m n addr : Nat} (h : addr < m * (12 * n)) :
    ∃ l < m, ∃ k < 12 * n, addr = gridAddr n l k := by
  have hpos : 0 < 12 * n := Nat.pos_of_mul_pos_left (Nat.zero_lt_of_lt h)
  exact ⟨addr / (12 * n), Nat.div_lt_of_lt_mul (by rwa [Nat.mul_comm]), addr % (12 * n), Nat.mod_lt _ hpos,
    (Nat.div_add_mod' addr (12 * n)).symm⟩

/-- R273: the slot buffer after the writes of BASE_ZERO, element by element. -/
theorem bankRead_baseZero (nm : Numerics) (c : Carrier) (t : Vector (Mem Sample) 4) {a : Nat} (ha : a < 4) (addr : Nat) :
    bankRead (slotWriteAll c.nprb.toNat t (baseZeroWrites nm c)) a addr =
      if a < c.nports.toNat ∧ addr < nsymb c.cp * (12 * c.nprb.toNat) then some nm.zero else bankRead t a addr := by
  split
  case isTrue h =>
    obtain ⟨hport, haddr⟩ := h
    obtain ⟨l, hl, k, hk, rfl⟩ := exists_gridAddr haddr
    refine bankRead_slotWriteAll_mem t (mem_baseZeroWrites.mpr ⟨a, hport, l, hl, k, hk, rfl⟩) ha fun w hw _ _ => ?_
    obtain ⟨_, _, _, _, _, _, rfl⟩ := mem_baseZeroWrites.mp hw
    rfl
  case isFalse h =>
    refine bankRead_slotWriteAll_other _ _ _ _ _ fun w hw ⟨hwa, hwaddr⟩ => ?_
    obtain ⟨b, hb, l, hl, k, hk, rfl⟩ := mem_baseZeroWrites.mp hw
    exact h ⟨hwa ▸ hb, hwaddr ▸ SlotGrid.gridAddr_lt_gridSize hl hk⟩

/-- Settles O55: the check, then the zeros of the whole grid. -/
theorem baseZero : Obligations.BaseZero := by
  refine ⟨by decide, num.zero_magnitude, fun s => ?_⟩
  have hexec := finish_single (beq_iff_eq (a := s.sa.state) (b := .noCarrier)) .iiState s fun _ =>
    .done (putSlot (baseZeroWrites num s.sa.car) s)
  split
  case isTrue hstate => exact hexec.trans (if_pos hstate)
  case isFalse hstate =>
    exact ⟨completed (putSlot (baseZeroWrites num s.sa.car) s), hexec.trans (if_neg hstate), rfl,
      fun a ha addr => bankRead_baseZero num s.sa.car _ ha addr⟩

end Sys2Proof.SlotConfiguration

/-! SUPPORT. PDCCH_PUT (R274, R275): its checks, what each of its two steps does with the answer it takes, and the elements of
antenna 0 afterwards. -/

namespace Sys2Proof.ControlChannelPut

open Sys2Proof.Machine Sys2Proof.Config Sys2Proof.Claims Sys2Proof.RaeFailures Sys2Proof.TransferFailures

/-! ## Checks (R274) -/

/-- R274: the checks line by line. -/
theorem pdcchLines_guard (s : State) :
    guardLines 0 (pdcchLines s) =
      if s.sa.state = .noCarrier ∨ s.sa.csValid = false then .error { code := .iiState, step := 0 }
      else if 128 < s.args.pd.msgLen.toNat then .error { code := .iiPayloadLen, step := 0 } else .ok () := by
  simp only [pdcchLines, guardLines_cons, guardLines_nil, Bool.or_eq_true, beq_iff_eq, Bool.not_eq_true', decide_eq_true_eq]

/-- R274: the SA has a carrier and a CORESET, and the message fits. -/
structure PutReady (s : State) : Prop where
  carrier : s.sa.state = .carrierSet
  coreset : s.sa.csValid = true
  length : s.args.pd.msgLen.toNat ≤ 128

theorem PutReady.guard {s : State} (h : PutReady s) : guardLines 0 (pdcchLines s) = .ok () := by
  rw [pdcchLines_guard, if_neg (by simp [h.carrier, h.coreset]), if_neg (Nat.not_lt.mpr h.length)]

/-- R274: past the checks the command is its two steps. -/
theorem PutReady.exec_eq {s : State} (h : PutReady s) :
    exec .pdcchPut s = finish (andThen (pdcchStep1 s) pdcchStep2) := finish_orRaise_ok h.guard s _

/-! ## One step (R274, R275) -/

theorem allInCoreset_iff (s : State) (w : List (Nat × Nat × Sample)) :
    allInCoreset s w = true ↔ ∀ e ∈ w, InRegion s e := by
  simp only [allInCoreset, List.all_eq_true, inCoreset, Bool.and_eq_true, decide_eq_true_eq, and_assoc]

theorem pdcchPlace_of_inside {s : State} {w : List (Nat × Nat × Sample)} (h : ∀ e ∈ w, InRegion s e) (step : BitVec 4) :
    pdcchPlace step (some w) s = .done (putSlot (pdcchWrites w) s) := if_pos ((allInCoreset_iff s w).mpr h)

theorem pdcchPlace_of_outside {s : State} {w : List (Nat × Nat × Sample)} (h : ∃ e ∈ w, ¬ InRegion s e) (step : BitVec 4) :
    pdcchPlace step (some w) s = .raised { code := .iiPdcchLoc, step := step } s := by
  obtain ⟨e, he, hout⟩ := h
  exact if_neg fun hall => hout ((allInCoreset_iff s w).mp hall e he)

/-- R274: the state after step 1 has placed its list. -/
def stepOnePlaced (s : State) (w : List (Nat × Nat × Sample)) : State := putSlot (pdcchWrites w) (pdcchDmrsCalled s)

theorem pdcchStep1_of_head {s : State} {x : Option (List (Nat × Nat × Sample))}
    (h : s.env.answers.pdcchDmrs.head? = some x) : pdcchStep1 s = pdcchPlace 1 x (pdcchDmrsCalled s) :=
  congrArg (pdcchPlace 1 · _) (nextAnswer_of_head h _ _)

/-- R274: a first list inside the control region is placed, and step 2 goes on. -/
theorem pdcchSteps_of_inside {s : State} {w : List (Nat × Nat × Sample)}
    (h : s.env.answers.pdcchDmrs.head? = some (some w)) (hin : ∀ e ∈ w, InRegion s e) :
    andThen (pdcchStep1 s) pdcchStep2 = pdcchStep2 (stepOnePlaced s w) := by
  rw [pdcchStep1_of_head h, pdcchPlace_of_inside (s := pdcchDmrsCalled s) hin, andThen_done]
  rfl

theorem pdcchStep2_of_head {s : State} {x : Option (List (Nat × Nat × Sample))}
    (h : s.env.answers.pdcchEncode.head? = some x) (w : List (Nat × Nat × Sample)) :
    pdcchStep2 (stepOnePlaced s w) = pdcchPlace 2 x (pdcchEncodeCalled (stepOnePlaced s w)) :=
  congrArg (pdcchPlace 2 · _) (nextAnswer_of_head (script := (stepOnePlaced s w).env.answers.pdcchEncode) h _ _)

/-! ## Failures (R274, R330) -/

theorem exec_pdcchPut_unready {s : State} (h : s.sa.state = .noCarrier ∨ s.sa.csValid = false) :
    exec .pdcchPut s = .next (failed 1 0x11 0 s) := by
  have hguard := pdcchLines_guard s
  rw [if_pos h] at hguard
  exact finish_orRaise_error hguard s _

theorem exec_pdcchPut_long {s : State} (hcarrier : s.sa.state = .carrierSet) (hcoreset : s.sa.csValid = true)
    (h : 128 < s.args.pd.msgLen.toNat) : exec .pdcchPut s = .next (failed 1 0x1F 0 s) := by
  have hguard := pdcchLines_guard s
  rw [if_neg (by simp [hcarrier, hcoreset]), if_pos h] at hguard
  exact finish_orRaise_error hguard s _

section
variable {s : State} (hready : PutReady s)
include hready

theorem exec_pdcchPut_dmrsFails (h : s.env.answers.pdcchDmrs.head? = some none) :
    ∃ t, exec .pdcchPut s = .next t ∧ t = { failed 4 0x82 1 s with env := t.env } := by
  rw [hready.exec_eq, pdcchStep1_of_head h]
  exact ⟨_, rfl, rfl⟩

theorem exec_pdcchPut_dmrsOutside {w : List (Nat × Nat × Sample)} (h : s.env.answers.pdcchDmrs.head? = some (some w))
    (hout : ∃ e ∈ w, ¬ InRegion s e) :
    ∃ t, exec .pdcchPut s = .next t ∧ t = { failed 1 0x23 1 s with env := t.env } := by
  rw [hready.exec_eq, pdcchStep1_of_head h, pdcchPlace_of_outside (s := pdcchDmrsCalled s) hout]
  exact ⟨_, rfl, rfl⟩

theorem exec_pdcchPut_encodeFails {w : List (Nat × Nat × Sample)} (h : s.env.answers.pdcchDmrs.head? = some (some w))
    (hin : ∀ e ∈ w, InRegion s e) (h' : s.env.answers.pdcchEncode.head? = some none) :
    ∃ t, exec .pdcchPut s = .next t ∧ t = { failed 4 0x82 2 s with mem := pdcchPlaced s w, env := t.env } := by
  rw [hready.exec_eq, pdcchSteps_of_inside h hin, pdcchStep2_of_head h']
  exact ⟨_, rfl, rfl⟩

theorem exec_pdcchPut_encodeOutside {w w' : List (Nat × Nat × Sample)}
    (h : s.env.answers.pdcchDmrs.head? = some (some w)) (hin : ∀ e ∈ w, InRegion s e)
    (h' : s.env.answers.pdcchEncode.head? = some (some w')) (hout : ∃ e ∈ w', ¬ InRegion s e) :
    ∃ t, exec .pdcchPut s = .next t ∧ t = { failed 1 0x23 2 s with mem := pdcchPlaced s w, env := t.env } := by
  rw [hready.exec_eq, pdcchSteps_of_inside h hin, pdcchStep2_of_head h',
    pdcchPlace_of_outside (s := pdcchEncodeCalled (stepOnePlaced s w)) hout]
  exact ⟨_, rfl, rfl⟩

end

/-! ## Success (R274) -/

/-- R274: of the writes of a list, the last to an element is the list's last entry for it. -/
theorem lastSlot_pdcchWrites (n : Nat) (w : List (Nat × Nat × Sample)) (addr : Nat) :
    lastSlot n (pdcchWrites w) 0 addr = lastEntry n w addr := by
  rw [lastSlot, lastEntry, pdcchWrites, ← List.map_reverse, List.find?_map, Option.map_map]
  simp [Function.comp_def]

/-- R274: both lists, one after the other, are the writes of the joined list. -/
theorem slotWriteAll_pdcch_append (n : Nat) (t : Vector (Mem Sample) 4) (w w' : List (Nat × Nat × Sample)) :
    slotWriteAll n (slotWriteAll n t (pdcchWrites w)) (pdcchWrites w') = slotWriteAll n t (pdcchWrites (w ++ w')) := by
  simp only [slotWriteAll, pdcchWrites, List.map_append, List.foldl_append]

/-- R274: PDCCH_PUT writes antenna 0 alone. -/
theorem bankRead_pdcch_other (n : Nat) (t : Vector (Mem Sample) 4) (w : List (Nat × Nat × Sample)) {a : Nat} (ha : a ≠ 0)
    (addr : Nat) : bankRead (slotWriteAll n t (pdcchWrites w)) a addr = bankRead t a addr := by
  refine bankRead_slotWriteAll_other _ _ _ _ _ fun x hx ⟨hxa, _⟩ => ha ?_
  obtain ⟨e, -, rfl⟩ := List.mem_map.mp hx
  exact hxa.symm

/-- R67: the two calls, with the scripted answers. -/
theorem pdcchEncodeCalled_history {s : State} {w w' : List (Nat × Nat × Sample)}
    (hw : s.env.answers.pdcchDmrs.head? = some (some w)) (hw' : s.env.answers.pdcchEncode.head? = some (some w')) :
    (pdcchEncodeCalled (stepOnePlaced s w)).env.history = s.env.history ++
      [ .pdcchDmrs s.sa.coreset s.sa.car s.args.en.cellId s.args.en.slot s.args.pd.aggr s.args.pd.ncce (some w),
        .pdcchEncode s.sa.coreset s.sa.car (pdcchMessage s.args.pd) s.args.pd.msgLen.toNat s.args.en.rnti s.args.en.cellId
          s.args.en.slot s.args.pd.aggr s.args.pd.ncce (some w') ] := by
  have hfirst : pdcchDmrsAnswer s = some w := nextAnswer_of_head hw _ _
  have hsecond : pdcchEncodeAnswer (stepOnePlaced s w) = some w' :=
    nextAnswer_of_head (script := (stepOnePlaced s w).env.answers.pdcchEncode) hw' _ _
  rw [pdcchEncodeCalled_eq, hsecond, recordCall_env]
  simp only [stepOnePlaced, pdcchDmrsCalled_eq, hfirst, putSlot_env, putSlot_args, putSlot_sa, recordCall_env,
    recordCall_args, recordCall_sa, List.append_assoc, List.cons_append, List.nil_append]

/-- Settles O56: both lists are placed, one after the other. -/
theorem pdcchPutCompletes : Obligations.PdcchPutCompletes := by
  refine ⟨by decide, fun s w w' hcarrier hcoreset hlen hw hw' hin => ?_⟩
  have hfirst : ∀ e ∈ w, InRegion s e := fun e he => hin e (List.mem_append_left w' he)
  have hsecond : ∀ e ∈ w', InRegion s e := fun e he => hin e (List.mem_append_right w he)
  refine ⟨completed (putSlot (pdcchWrites w') (pdcchEncodeCalled (stepOnePlaced s w))), ?_, rfl, fun addr => ?_,
    fun a addr ha => ?_, pdcchEncodeCalled_history hw hw'⟩
  · rw [(PutReady.mk hcarrier hcoreset hlen).exec_eq, pdcchSteps_of_inside hw hfirst, pdcchStep2_of_head hw',
      pdcchPlace_of_inside (s := pdcchEncodeCalled (stepOnePlaced s w)) hsecond]
    exact finish_done _
  · rw [← lastSlot_pdcchWrites, ← bankRead_slotWriteAll _ _ _ _ _ (by decide), ← slotWriteAll_pdcch_append]
    rfl
  · rw [← bankRead_pdcch_other s.sa.car.nprb.toNat s.mem.slotbuf (w ++ w') ha, ← slotWriteAll_pdcch_append]
    rfl

end Sys2Proof.ControlChannelPut

/-! SUPPORT. The reference-signal positions (R277): no element is named twice on an antenna, so each value stands where it was
written. -/

namespace Sys2Proof.DmrsPositions

open Sys2Proof.Machine Sys2Proof.Config Sys2Proof.Claims Sys2Proof.DataPositions Sys2Proof.EncodeData

/-- R277: antenna, symbol and subcarrier of a position differ. -/
abbrev Apart (x y : Nat × Nat × Nat × Nat) : Prop := (x.1, x.2.2) ≠ (y.1, y.2.2)

/-- R277: the positions of a port (with its layer) in one resource block of one symbol. -/
def dmrsBlock (p : Pattern) (pj : Nat × Nat) (l n : Nat) : List (Nat × Nat × Nat × Nat) :=
  (groupSc p.dmrsType (portGroup p.dmrsType pj.1)).map fun sc => (pj.2, pj.1, l, 12 * n + sc)

/-- R277: the positions of a port in one symbol. -/
def dmrsSymbol (p : Pattern) (pj : Nat × Nat) (l : Nat) : List (Nat × Nat × Nat × Nat) :=
  (prbSet p.prbMask).flatMap (dmrsBlock p pj l)

/-- R277: the positions of a port. -/
def dmrsPort (p : Pattern) (pj : Nat × Nat) : List (Nat × Nat × Nat × Nat) :=
  ((spanOf p).filter fun l => p.dmrsSym.getLsbD l).flatMap (dmrsSymbol p pj)

theorem dmrsPositions_eq_flatMap (p : Pattern) (ports : BitVec 12) :
    dmrsPositions p ports = (setBits ports).zipIdx.flatMap (dmrsPort p) := rfl

theorem mem_dmrsBlock {p : Pattern} {pj : Nat × Nat} {l n : Nat} {x : Nat × Nat × Nat × Nat} (h : x ∈ dmrsBlock p pj l n) :
    x.1 = pj.2 ∧ x.2.2.1 = l ∧ 12 * n ≤ x.2.2.2 ∧ x.2.2.2 < 12 * n + 12 := by
  obtain ⟨sc, hsc, rfl⟩ := List.mem_map.mp h
  exact ⟨rfl, rfl, Nat.le_add_right _ _, Nat.add_lt_add_left (SlotGrid.groupSc_lt hsc) _⟩

theorem mem_dmrsSymbol {p : Pattern} {pj : Nat × Nat} {l : Nat} {x : Nat × Nat × Nat × Nat} (h : x ∈ dmrsSymbol p pj l) :
    x.1 = pj.2 ∧ x.2.2.1 = l := by
  obtain ⟨n, -, hx⟩ := List.mem_flatMap.mp h
  obtain ⟨hj, hl, -⟩ := mem_dmrsBlock hx
  exact ⟨hj, hl⟩

theorem mem_dmrsPort {p : Pattern} {pj : Nat × Nat} {x : Nat × Nat × Nat × Nat} (h : x ∈ dmrsPort p pj) : x.1 = pj.2 := by
  obtain ⟨l, -, hx⟩ := List.mem_flatMap.mp h
  exact (mem_dmrsSymbol hx).1

theorem groupSc_nodup (ty : Bool) (g : Nat) : (groupSc ty g).Nodup := by
  unfold groupSc
  split <;> decide

theorem dmrsBlock_apart (p : Pattern) (pj : Nat × Nat) (l n : Nat) : (dmrsBlock p pj l n).Pairwise Apart :=
  List.pairwise_map.mpr ((groupSc_nodup _ _).imp fun hne heq => hne (by simpa using heq))

theorem dmrsSymbol_apart (p : Pattern) (pj : Nat × Nat) (l : Nat) : (dmrsSymbol p pj l).Pairwise Apart := by
  refine List.pairwise_flatMap.mpr ⟨fun n _ => dmrsBlock_apart p pj l n, (prbSet_rises _).imp fun hmn x hx y hy heq => ?_⟩
  obtain ⟨-, -, -, hxlt⟩ := mem_dmrsBlock hx
  obtain ⟨-, -, hyle, -⟩ := mem_dmrsBlock hy
  have hsc : x.2.2.2 = y.2.2.2 := congrArg (·.2.2) heq
  omega

theorem dmrsPort_apart (p : Pattern) (pj : Nat × Nat) : (dmrsPort p pj).Pairwise Apart := by
  refine List.pairwise_flatMap.mpr
    ⟨fun l _ => dmrsSymbol_apart p pj l, ((spanOf_rises p).filter _).imp fun hlm x hx y hy heq => hlm.ne ?_⟩
  rw [← (mem_dmrsSymbol hx).2, ← (mem_dmrsSymbol hy).2]
  exact congrArg (·.2.1) heq

/-- R277: a port has one layer, a symbol and a resource block appear once, and a group has each subcarrier once. -/
theorem dmrsPositions_apart (p : Pattern) (ports : BitVec 12) : (dmrsPositions p ports).Pairwise Apart := by
  have hlayers : (setBits ports).zipIdx.Pairwise fun x y => x.2 ≠ y.2 :=
    List.pairwise_map.mp (by rw [List.zipIdx_map_snd]; exact List.nodup_range')
  rw [dmrsPositions_eq_flatMap]
  refine List.pairwise_flatMap.mpr ⟨fun pj _ => dmrsPort_apart p pj, hlayers.imp fun hne x hx y hy heq => hne ?_⟩
  rw [← mem_dmrsPort hx, ← mem_dmrsPort hy]
  exact (Prod.mk.inj heq).1

/-- R277: an element of the slot buffer is at most one position. -/
theorem dmrsPositions_index_unique {p : Pattern} {ports : BitVec 12} {i i' : Nat} {x y : Nat × Nat × Nat × Nat}
    (hx : (dmrsPositions p ports)[i]? = some x) (hy : (dmrsPositions p ports)[i']? = some y)
    (h : (x.1, x.2.2) = (y.1, y.2.2)) : i = i' := by
  have hnodup : ((dmrsPositions p ports).map fun q => (q.1, q.2.2)).Nodup := List.pairwise_map.mpr (dmrsPositions_apart p ports)
  obtain ⟨hi, -⟩ := List.getElem?_eq_some_iff.mp hx
  refine (List.getElem?_inj (by simpa using hi) hnodup).mp ?_
  rw [List.getElem?_map, List.getElem?_map, hx, hy, Option.map_some, Option.map_some, h]

theorem mem_dmrsWrites {q : List (Nat × Nat × Nat × Nat)} {v : List Sample} {w : SlotWrite} :
    w ∈ dmrsWrites q v ↔ ∃ i j p l k : Nat, ∃ x, q[i]? = some (j, p, l, k) ∧ v[i]? = some x ∧
      w = { a := j, l := l, k := k, v := x } := by
  rw [dmrsWrites, List.mem_iff_getElem?]
  refine exists_congr fun i => ?_
  rw [List.getElem?_zipWith_eq_some]
  constructor
  · rintro ⟨⟨j, p, l, k⟩, x, hq, hv, rfl⟩
    exact ⟨j, p, l, k, x, hq, hv, rfl⟩
  · rintro ⟨j, p, l, k, x, hq, hv, rfl⟩
    exact ⟨_, x, hq, hv, rfl⟩

/-- R277: every write is to a reference-signal element. -/
theorem dmrsWrites_dmrsElement {s : State} {v : List Sample} {w : SlotWrite} (h : w ∈ dmrsWrites (grantDmrs s) v) :
    DmrsElement s w.a (gridAddr s.sa.car.nprb.toNat w.l w.k) := by
  obtain ⟨i, j, p, l, k, x, hq, -, rfl⟩ := mem_dmrsWrites.mp h
  exact ⟨p, l, k, List.mem_of_getElem? hq, rfl⟩

section
variable {s : State} (hgrant : checkGrantError .transmitter s = none)
include hgrant

/-- R225, R277: a position of a grant in order lies on an antenna that carries a layer, inside the carrier. -/
theorem dmrsPosition_fits {j p l k : Nat} (h : (j, p, l, k) ∈ grantDmrs s) :
    j < s.sa.car.nports.toNat ∧ k < 12 * s.sa.car.nprb.toNat := by
  obtain ⟨hj, -, hk⟩ := SlotGrid.grantDmrs_inGrid (TransferChecks.checkGrant_of_error_none hgrant 0) h
  exact ⟨hj, hk⟩

/-- R277: after the writes each value stands at its position. -/
theorem dmrsWrites_placed (hinv : unitsInv s = true) (t : Vector (Mem Sample) 4) {v : List Sample} {i j p l k : Nat}
    {x : Sample} (hq : (grantDmrs s)[i]? = some (j, p, l, k)) (hv : v[i]? = some x) :
    bankRead (slotWriteAll s.sa.car.nprb.toNat t (dmrsWrites (grantDmrs s) v)) j (gridAddr s.sa.car.nprb.toNat l k) =
      some x := by
  obtain ⟨hj, hk⟩ := dmrsPosition_fits hgrant (List.mem_of_getElem? hq)
  have hfour : j < 4 := by
    obtain ⟨-, -, -, -, hsa, -⟩ := checkGrant_ok (TransferChecks.checkGrant_of_error_none hgrant 0)
    obtain ⟨hvalid, -⟩ := ((saInv_iff _).mp ((unitsInv_iff s).mp hinv).2).2.1 (hsa rfl).1
    obtain ⟨-, -, -, -, hports⟩ := (carrierValid_iff _).mp hvalid
    omega
  refine bankRead_slotWriteAll_mem t (mem_dmrsWrites.mpr ⟨i, j, p, l, k, x, hq, hv, rfl⟩) hfour fun w' hw' ha haddr => ?_
  obtain ⟨i', j', p', l', k', x', hq', hv', rfl⟩ := mem_dmrsWrites.mp hw'
  obtain rfl : j' = j := ha
  obtain ⟨-, hk'⟩ := dmrsPosition_fits hgrant (List.mem_of_getElem? hq')
  obtain ⟨rfl, rfl⟩ : l' = l ∧ k' = k := gridAddr_inj hk' hk haddr
  obtain rfl := dmrsPositions_index_unique hq hq' rfl
  exact Option.some.inj (hv'.symm.trans hv)

/-- R147, R277: no data write goes to a reference-signal element. -/
theorem encodeWrites_avoid_dmrs {j p l k : Nat} (h : (j, p, l, k) ∈ grantDmrs s) {b c : List Bool} {w : SlotWrite}
    (hw : w ∈ encodeWrites num s.recs b c) : gridAddr s.sa.car.nprb.toNat w.l w.k ≠ gridAddr s.sa.car.nprb.toNat l k := by
  intro haddr
  obtain ⟨-, -, -, -, -, -, -, -, -, -, -, -, -, hports, -⟩ :=
    checkGrant_ok (TransferChecks.checkGrant_of_error_none hgrant 0)
  obtain ⟨lam, -, i, l', k', hpos, rfl⟩ := mem_encodeWrites.mp hw
  have hdata := List.mem_of_getElem? hpos
  obtain ⟨rfl, rfl⟩ := gridAddr_inj (dataPosition_lt hgrant hdata) (dmrsPosition_fits hgrant h).2 haddr
  exact (dataAvoidsReferenceSignals (patternOf s.recs) s.recs.gr.ports).2 hports j p _ _ h hdata

end

end Sys2Proof.DmrsPositions

/-! SUPPORT. PDSCH_PUT (R276, R277, R281): its first step places the reference signal, its second is ENCODE with step 2; and
what a failed put of either channel has written. -/

namespace Sys2Proof.SharedChannelPut

open Sys2Proof.Machine Sys2Proof.Config Sys2Proof.Claims Sys2Proof.RaeFailures Sys2Proof.CommandFrames
  Sys2Proof.TransferChecks Sys2Proof.TransferFailures Sys2Proof.EncodeData Sys2Proof.DmrsPositions
  Sys2Proof.ControlChannelPut

/-! ## ENCODE under another step (R276) -/

/-- R313: the same end, an error carrying the given step. -/
def atStep (step : BitVec 4) : CmdEnd → CmdEnd
  | .done s => .done s
  | .raised e s => .raised { e with step := step } s

theorem orRaise_atStep (step : BitVec 4) (lines : List (Bool × ErrCode)) (s : State) {k k' : Unit → CmdEnd}
    (h : k () = atStep step (k' ())) :
    orRaise (guardLines step lines) s k = atStep step (orRaise (guardLines 0 lines) s k') := by
  unfold guardLines
  split
  · rfl
  · exact h

theorem encodeBody_atStep (step : BitVec 4) (s : State) : encodeBody step s = atStep step (encodeBody 0 s) := by
  unfold encodeBody
  split
  · rfl
  · split <;> rfl

/-- R276: the step is all that ENCODE inside PDSCH_PUT differs in. -/
theorem encodeRule_atStep (step : BitVec 4) (s : State) : encodeRule step s = atStep step (encodeRule 0 s) := by
  refine orRaise_atStep step _ s ?_
  split
  · exact orRaise_atStep step _ s (encodeBody_atStep step s)
  · rfl

/-! ## Step 1 (R277) -/

/-- R277: the state after step 1 has placed the values. -/
def dmrsStepPlaced (s : State) (v : List Sample) : State := putSlot (dmrsWrites (grantDmrs s) v) (dmrsCalled s)

theorem pdschStep1_of_lineError {s : State} {cls : BitVec 3} {code : BitVec 8}
    (h : checkGrantError .transmitter s = some (cls, code)) :
    ∃ c, pdschStep1 s = .raised { code := c, step := 1 } s ∧ errClassNum c = cls ∧ errCodeNum c = code := by
  obtain ⟨c, hc, hcls, hcode⟩ := guardLines_of_lineError_some ((lineError_checkGrant _ s).trans h) 1
  exact ⟨c, by rw [pdschStep1, checkGrant, hc, orRaise_error], hcls, hcode⟩

theorem pdschStep1_of_grant {s : State} (h : checkGrantError .transmitter s = none) :
    pdschStep1 s = match dmrsAnswer s with
      | none => .raised { code := .ciCollab, step := 1 } (dmrsCalled s)
      | some v => .done (dmrsStepPlaced s v) := by
  rw [pdschStep1, checkGrant_of_error_none h, orRaise_ok]
  rfl

theorem dmrsAnswer_eq_some_iff {s : State} {v : List Sample} :
    dmrsAnswer s = some v ↔ dmrsValsAnswer s = some v ∧ v.length = (grantDmrs s).length := by
  rw [dmrsAnswer, Option.bind_eq_some_iff]
  constructor
  · rintro ⟨v', hv', h⟩
    obtain ⟨hlen, rfl⟩ := Option.ite_some_none_eq_some.mp h
    exact ⟨hv', hlen⟩
  · rintro ⟨hv, hlen⟩
    exact ⟨v, hv, if_pos hlen⟩

theorem dmrsAnswer_of_length {s : State} {v : List Sample} (h : s.env.answers.dmrsVals.head? = some (some v))
    (hlen : v.length = (grantDmrs s).length) : dmrsAnswer s = some v :=
  dmrsAnswer_eq_some_iff.mpr ⟨nextAnswer_of_head h _ _, hlen⟩

theorem dmrsAnswer_of_failure {s : State} {x : Option (List Sample)} (h : s.env.answers.dmrsVals.head? = some x)
    (hfails : ∀ v, x = some v → v.length ≠ (grantDmrs s).length) : dmrsAnswer s = none := by
  refine Option.eq_none_iff_forall_ne_some.mpr fun v hv => ?_
  obtain ⟨hans, hlen⟩ := dmrsAnswer_eq_some_iff.mp hv
  exact hfails v ((nextAnswer_of_head h _ _).symm.trans hans) hlen

/-- R276: with the values placed, step 2 goes on. -/
theorem exec_pdschPut_of_answer {s : State} {v : List Sample} (hgrant : checkGrantError .transmitter s = none)
    (h : s.env.answers.dmrsVals.head? = some (some v)) (hlen : v.length = (grantDmrs s).length) :
    exec .pdschPut s = finish (encodeRule 2 (dmrsStepPlaced s v)) := by
  change finish (andThen (pdschStep1 s) (encodeRule 2)) = _
  rw [pdschStep1_of_grant hgrant, dmrsAnswer_of_length h hlen, andThen_done]

/-! ## Step 2 sees the operands of step 1 (R276, R334) -/

/-- R334: the call of Dmrs.vals is no call of Seq.gen. -/
theorem dmrsStepPlaced_beforeSeq (s : State) (v : List Sample) : BeforeSeq s (dmrsStepPlaced s v) :=
  ⟨rfl, rfl, fun _ _ _ _ _ => by simp [dmrsStepPlaced, dmrsCalled, knownSequence, List.findSome?_append]⟩

theorem sequenceAgrees_placed {s : State} {c : List Bool} (h : SequenceAgrees s c) (v : List Sample) :
    SequenceAgrees (dmrsStepPlaced s v) c := by
  unfold SequenceAgrees
  rw [(dmrsStepPlaced_beforeSeq s v).known]
  exact h

theorem seqGenFails_placed {s : State} (h : SeqGenFails s) (v : List Sample) : SeqGenFails (dmrsStepPlaced s v) := by
  obtain ⟨x, hx, hfails⟩ := h
  exact ⟨x, hx, fun c hc => (hfails c hc).imp_left (sequenceAgrees_placed · v)⟩

theorem encodeCollabFails_placed {s : State} (h : EncodeCollabFails s) (v : List Sample) :
    EncodeCollabFails (dmrsStepPlaced s v) :=
  h.imp id fun ⟨hfec, hseq⟩ => ⟨hfec, seqGenFails_placed hseq v⟩

/-! ## Success (R276, R277) -/

/-- R67: the call of step 1 and the two of ENCODE. -/
theorem pdschPut_history {s : State} {v : List Sample} {b c : List Bool}
    (hv : s.env.answers.dmrsVals.head? = some (some v)) (hfec : s.env.answers.fecEncode.head? = some (some b))
    (hseq : s.env.answers.seqGen.head? = some (some c)) (hagree : SequenceAgrees s c) :
    (encodeAfterSeq (dmrsStepPlaced s v)).env.history = s.env.history ++
      (.dmrsVals s.args.en.cellId s.args.en.slot s.recs.gr.dir s.recs.cfg.dmrsType s.recs.gr.dmrsPtr s.recs.gr.ncg
        ((grantDmrs s).map fun q => q.2) s.recs.gr.mapType (some v) ::
          encodeCalls s (payloadBits (dmrsStepPlaced s v)) b c) := by
  have hans : dmrsValsAnswer s = some v := nextAnswer_of_head hv _ _
  have hcall : (dmrsStepPlaced s v).env.history = s.env.history ++ [.dmrsVals s.args.en.cellId s.args.en.slot s.recs.gr.dir
      s.recs.cfg.dmrsType s.recs.gr.dmrsPtr s.recs.gr.ncg ((grantDmrs s).map fun q => q.2) s.recs.gr.mapType (some v)] := by
    rw [dmrsStepPlaced, putSlot_env, dmrsCalled, dmrsValsCalled_eq, recordCall_env, hans]
  rw [encodeAfterSeq_history (s := dmrsStepPlaced s v) hfec hseq (sequenceAgrees_placed hagree v), hcall, List.append_assoc]
  rfl

/-- R276: the state after both steps have placed their elements. -/
def stepTwoPlaced (s : State) (v : List Sample) (b c : List Bool) : State :=
  putSlot (encodeWrites num s.recs b c) (encodeAfterSeq (dmrsStepPlaced s v))

/-- R71, R276: the slot buffer after both steps. -/
theorem stepTwoPlaced_slotbuf (s : State) (v : List Sample) (b c : List Bool) :
    (stepTwoPlaced s v b c).mem.slotbuf = slotWriteAll s.sa.car.nprb.toNat
      (slotWriteAll s.sa.car.nprb.toNat s.mem.slotbuf (dmrsWrites (grantDmrs s) v)) (encodeWrites num s.recs b c) := rfl

theorem stepTwoPlaced_eq (s : State) (v : List Sample) (b c : List Bool) :
    stepTwoPlaced s v b c = { s with
      mem := { s.mem with slotbuf := (stepTwoPlaced s v b c).mem.slotbuf }, env := (stepTwoPlaced s v b c).env } := by
  obtain ⟨e, he⟩ := MemoryOrder.encodeAfterSeq_same (dmrsStepPlaced s v)
  rw [stepTwoPlaced, he]
  rfl

section
variable {s : State} {v : List Sample} {b c : List Bool} (hgrant : checkGrantError .transmitter s = none)
include hgrant

theorem exec_pdschPut_of_answers (hen : s.recs.tb0.en = true) (hcw : checkCodewordError .transmitter s = none)
    (hv : s.env.answers.dmrsVals.head? = some (some v)) (hlen : v.length = (grantDmrs s).length)
    (hfec : s.env.answers.fecEncode.head? = some (some b)) (hseq : s.env.answers.seqGen.head? = some (some c))
    (hagree : SequenceAgrees s c) (hb : b.length = codedLength s.recs) (hc : c.length = codedLength s.recs) :
    exec .pdschPut s = .next (completed (stepTwoPlaced s v b c)) := by
  rw [exec_pdschPut_of_answer hgrant hv hlen, encodeRule_of_checks (s := dmrsStepPlaced s v) hgrant hen hcw,
    encodeBody_of_answers (s := dmrsStepPlaced s v) hfec hseq (sequenceAgrees_placed hagree v) hb hc]
  exact finish_done _

theorem stepTwoPlaced_data (hinv : unitsInv s = true) (hcw : checkCodewordError .transmitter s = none)
    (hb : b.length = codedLength s.recs) (hc : c.length = codedLength s.recs) :
    DataPlaced s (stepTwoPlaced s v b c) b c := fun _ hlam _ _ _ hpos =>
  encodeWrites_placed (s := dmrsStepPlaced s v) hinv hgrant (order_pos_of_checkCodeword hcw) hb hc hlam hpos

theorem stepTwoPlaced_dmrs (hinv : unitsInv s = true) : DmrsPlaced s (stepTwoPlaced s v b c) v := by
  intro i j p l k x hq hx
  have hpos : (j, p, l, k) ∈ grantDmrs s := List.mem_of_getElem? hq
  change bankRead (stepTwoPlaced s v b c).mem.slotbuf j (gridAddr s.sa.car.nprb.toNat l k) = some x
  rw [stepTwoPlaced_slotbuf,
    bankRead_slotWriteAll_other _ _ _ _ _ fun w hw hwa => encodeWrites_avoid_dmrs hgrant hpos hw hwa.2]
  exact dmrsWrites_placed hgrant hinv _ hq hx

end

theorem stepTwoPlaced_other (s : State) (v : List Sample) (b c : List Bool) :
    SlotOtherwise s (stepTwoPlaced s v b c) (fun x addr => DataElement s x addr ∨ DmrsElement s x addr) := by
  intro a _ addr hno
  rw [stepTwoPlaced_slotbuf, bankRead_slotWriteAll_other, bankRead_slotWriteAll_other]
  · rintro w hw ⟨rfl, rfl⟩
    exact hno (.inr (dmrsWrites_dmrsElement hw))
  · rintro w hw ⟨rfl, rfl⟩
    exact hno (.inl (encodeWrites_dataElement hw))

/-- Settles O57: step 1's values and the data of ENCODE stand side by side. -/
theorem pdschPutCompletes : Obligations.PdschPutCompletes := by
  refine ⟨by decide, fun s v b c hinv hgrant hen hcw hv hlen hfec hseq hagree hb hc => ?_⟩
  exact ⟨_, payloadBits (dmrsStepPlaced s v), exec_pdschPut_of_answers hgrant hen hcw hv hlen hfec hseq hagree hb hc,
    congrArg completed (stepTwoPlaced_eq s v b c), stepTwoPlaced_data hgrant hinv hcw hb hc, stepTwoPlaced_dmrs hgrant hinv,
    stepTwoPlaced_other s v b c, payloadBits_isPayload (dmrsStepPlaced s v), pdschPut_history hv hfec hseq hagree⟩

/-! ## Failures (R276, R277, R330) -/

theorem exec_pdschPut_of_lineError {s : State} {cls : BitVec 3} {code : BitVec 8}
    (h : checkGrantError .transmitter s = some (cls, code)) : exec .pdschPut s = .next (failed cls code 1 s) := by
  obtain ⟨c, hc, rfl, rfl⟩ := pdschStep1_of_lineError h
  change finish (andThen (pdschStep1 s) (encodeRule 2)) = _
  rw [hc, andThen_raised]
  exact CommandWords.finish_raised _ _

theorem exec_pdschPut_dmrsFails {s : State} (hgrant : checkGrantError .transmitter s = none) {x : Option (List Sample)}
    (h : s.env.answers.dmrsVals.head? = some x) (hfails : ∀ v, x = some v → v.length ≠ (grantDmrs s).length) :
    ∃ t, exec .pdschPut s = .next t ∧ t = { failed 4 0x82 1 s with env := t.env } := by
  change ∃ t, finish (andThen (pdschStep1 s) (encodeRule 2)) = .next t ∧ _
  rw [pdschStep1_of_grant hgrant, dmrsAnswer_of_failure h hfails]
  exact ⟨_, rfl, rfl⟩

/-- R276, R318: a failure of step 2 that touched nothing but the environment leaves the values of step 1. -/
theorem finishState_placed {s t : State} {v : List Sample} (h : SameButEnv (dmrsStepPlaced s v) t) (c : ErrCode) :
    finishState (.raised { code := c, step := 2 } t) =
      { failed (errClassNum c) (errCodeNum c) 2 s with
        mem := dmrsPlaced s v, env := (finishState (.raised { code := c, step := 2 } t)).env } := by
  obtain ⟨e, rfl⟩ := h
  rfl

section
variable {s : State} {v : List Sample} (hgrant : checkGrantError .transmitter s = none)
include hgrant

theorem stepTwo_noCodeword (hen : s.recs.tb0.en = false) :
    encodeRule 2 (dmrsStepPlaced s v) = .done (dmrsStepPlaced s v) := by
  have hen' : ¬ (dmrsStepPlaced s v).recs.tb0.en = true := Bool.eq_false_iff.mp hen
  rw [encodeRule_of_grant (s := dmrsStepPlaced s v) hgrant, if_neg hen']

theorem stepTwo_codewordFails (hen : s.recs.tb0.en = true) {cls : BitVec 3} {code : BitVec 8}
    (h : checkCodewordError .transmitter s = some (cls, code)) :
    ∃ c, encodeRule 2 (dmrsStepPlaced s v) = .raised { code := c, step := 2 } (dmrsStepPlaced s v) ∧
      errClassNum c = cls ∧ errCodeNum c = code := by
  have hline := (lineError_checkCodeword .transmitter (dmrsStepPlaced s v)).trans h
  obtain ⟨c, hc, hcls, hcode⟩ := guardLines_of_lineError_some hline 2
  refine ⟨c, ?_, hcls, hcode⟩
  have hen' : (dmrsStepPlaced s v).recs.tb0.en = true := hen
  rw [encodeRule_of_grant (s := dmrsStepPlaced s v) hgrant, if_pos hen', checkCodeword, hc, orRaise_error]

theorem stepTwo_collabFails (hen : s.recs.tb0.en = true) (hcw : checkCodewordError .transmitter s = none)
    (h : EncodeCollabFails s) :
    ∃ t, encodeRule 2 (dmrsStepPlaced s v) = .raised { code := .ciCollab, step := 2 } t ∧
      SameButEnv (dmrsStepPlaced s v) t := by
  obtain ⟨t, ht, hsame⟩ := encodeBody_of_failure (encodeCollabFails_placed h v)
  refine ⟨t, ?_, hsame⟩
  rw [encodeRule_of_checks (s := dmrsStepPlaced s v) hgrant hen hcw, encodeBody_atStep, ht]
  rfl

end

/-- Settles O58: each put by its first failing check or step. -/
theorem putChecks : Obligations.PutChecks := by
  refine ⟨fun s => ⟨exec_pdcchPut_unready, fun hcarrier hcoreset => ⟨exec_pdcchPut_long hcarrier hcoreset, fun hlen => ?_⟩⟩,
    fun s => ⟨fun cls code => exec_pdschPut_of_lineError, fun hgrant =>
      ⟨fun x => exec_pdschPut_dmrsFails hgrant, fun v hv hlen => ?_⟩⟩⟩
  · have hready := PutReady.mk hcarrier hcoreset hlen
    exact ⟨exec_pdcchPut_dmrsFails hready, fun w hw => ⟨exec_pdcchPut_dmrsOutside hready hw, fun hin =>
      ⟨exec_pdcchPut_encodeFails hready hw hin, fun w' => exec_pdcchPut_encodeOutside hready hw hin⟩⟩⟩
  · refine ⟨_, exec_pdschPut_of_answer hgrant hv hlen, fun hen => ?_, fun hen =>
      ⟨fun cls code herror => ?_, fun hcw hfails => ?_⟩⟩
    · rw [stepTwo_noCodeword hgrant hen]
      rfl
    · obtain ⟨c, hc, rfl, rfl⟩ := stepTwo_codewordFails (v := v) hgrant hen herror
      rw [hc]
      exact finishState_placed (.refl _) c
    · obtain ⟨t, ht, hsame⟩ := stepTwo_collabFails (v := v) hgrant hen hcw hfails
      rw [ht]
      exact finishState_placed hsame .ciCollab

/-! ## Every end of a put (R281) -/

/-- R281: a rule run from s succeeds, fails with step 0 or 1 and nothing written, or fails with step 2 and one of the given
lists of writes made. -/
def LeavesStepOne (s : State) (stepOne : List SlotWrite → Prop) : CmdEnd → Prop
  | .done t => t.sys = s.sys
  | .raised e t => t.sys = s.sys ∧
    ((e.step.toNat ≤ 1 ∧ t.mem = s.mem) ∨
      (e.step = 2 ∧ ∃ ws, t.mem = { s.mem with slotbuf := slotWriteAll s.sa.car.nprb.toNat s.mem.slotbuf ws } ∧ stepOne ws))

theorem leavesStepOne_of_guard {s : State} {stepOne : List SlotWrite → Prop} {step : BitVec 4} (hstep : step.toNat ≤ 1)
    {lines : List (Bool × ErrCode)} {k : Unit → CmdEnd} (hk : LeavesStepOne s stepOne (k ())) :
    LeavesStepOne s stepOne (orRaise (guardLines step lines) s k) := by
  obtain ⟨h, -⟩ | ⟨c, h, -⟩ := guardLines_cases step lines <;> rw [h]
  · exact hk
  · exact ⟨rfl, .inl ⟨hstep, rfl⟩⟩

/-- R274: what step 1 of PDCCH_PUT writes. -/
abbrev PdcchStepOne (s : State) (ws : List SlotWrite) : Prop := ∃ w, pdcchDmrsAnswer s = some w ∧ ws = pdcchWrites w

/-- R277: what step 1 of PDSCH_PUT writes. -/
abbrev PdschStepOne (s : State) (ws : List SlotWrite) : Prop := ∃ v, dmrsValsAnswer s = some v ∧
  ws = dmrsWrites (dmrsPositions (patternOf s.recs) s.recs.gr.ports) v

/-- R274, R281: step 1 of PDCCH_PUT fails before its first write, step 2 before its own. -/
theorem pdcchSteps_leaveStepOne (s : State) :
    LeavesStepOne s (PdcchStepOne s) (andThen (pdcchStep1 s) pdcchStep2) := by
  unfold pdcchStep1
  obtain ⟨-, h⟩ | ⟨w, hw, ⟨-, h⟩ | ⟨-, h⟩⟩ := pdcchPlace_cases 1 (pdcchDmrsAnswer s) (pdcchDmrsCalled s) <;> rw [h]
  · exact ⟨rfl, .inl ⟨by decide, rfl⟩⟩
  · change LeavesStepOne s _ (pdcchStep2 (stepOnePlaced s w))
    unfold pdcchStep2
    obtain ⟨-, h'⟩ | ⟨w', -, ⟨-, h'⟩ | ⟨-, h'⟩⟩ := pdcchPlace_cases 2 (pdcchEncodeAnswer (stepOnePlaced s w))
      (pdcchEncodeCalled (stepOnePlaced s w)) <;> rw [h']
    · exact ⟨rfl, .inr ⟨rfl, pdcchWrites w, rfl, w, hw, rfl⟩⟩
    · rfl
    · exact ⟨rfl, .inr ⟨rfl, pdcchWrites w, rfl, w, hw, rfl⟩⟩
  · exact ⟨rfl, .inl ⟨by decide, rfl⟩⟩

/-- R276, R281: ENCODE after step 1 of PDSCH_PUT fails before its first write. -/
theorem encodeRule_leavesStepOne {s : State} {v : List Sample} (hv : dmrsValsAnswer s = some v) :
    LeavesStepOne s (PdschStepOne s) (encodeRule 2 (dmrsStepPlaced s v)) := by
  have hall := encodeRule_leavesAll (dmrsStepPlaced s v)
  rw [encodeRule_atStep]
  cases hend : encodeRule 0 (dmrsStepPlaced s v) with
  | done t =>
    rw [hend] at hall
    exact hall
  | raised e t =>
    rw [hend] at hall
    obtain ⟨-, x, rfl⟩ := hall
    exact ⟨rfl, .inr ⟨rfl, _, rfl, v, hv, rfl⟩⟩

theorem pdschSteps_leaveStepOne (s : State) :
    LeavesStepOne s (PdschStepOne s) (andThen (pdschStep1 s) (encodeRule 2)) := by
  cases hgrant : checkGrantError .transmitter s with
  | some e =>
    obtain ⟨c, hc, -⟩ := pdschStep1_of_lineError hgrant
    rw [hc]
    exact ⟨rfl, .inl ⟨le_rfl, rfl⟩⟩
  | none =>
    rw [pdschStep1_of_grant hgrant]
    cases hans : dmrsAnswer s with
    | none => exact ⟨rfl, .inl ⟨le_rfl, rfl⟩⟩
    | some v => exact encodeRule_leavesStepOne (dmrsAnswer_eq_some_iff.mp hans).1

/-- R318: the system registers and the memories of a completed put. -/
theorem LeavesStepOne.finishState_cases {s : State} {stepOne : List SlotWrite → Prop} {r : CmdEnd}
    (h : LeavesStepOne s stepOne r) :
    (finishState r).sys = (completed s).sys ∨ ∃ cls code stp, (finishState r).sys = (failed cls code stp s).sys ∧
      ((stp.toNat ≤ 1 ∧ (finishState r).mem = s.mem) ∨
        (stp = 2 ∧ ∃ ws, (finishState r).mem =
          { s.mem with slotbuf := slotWriteAll s.sa.car.nprb.toNat s.mem.slotbuf ws } ∧ stepOne ws)) := by
  cases r with
  | done t => exact .inl (congrArg doneFlags h)
  | raised e t =>
    obtain ⟨hsys, hmem⟩ := h
    exact .inr ⟨_, _, _, congrArg (fun y => doneFlags (errorFlags e y)) hsys, hmem⟩

/-- A put's weaker reading of which lists step 1 writes. -/
theorem LeavesStepOne.mono {s : State} {P Q : List SlotWrite → Prop} (hPQ : ∀ ws, P ws → Q ws) {r : CmdEnd}
    (h : LeavesStepOne s P r) : LeavesStepOne s Q r := by
  cases r with
  | done t => exact h
  | raised e t => exact h.imp_right (Or.imp_right (And.imp_right fun ⟨ws, hmem, hws⟩ => ⟨ws, hmem, hPQ ws hws⟩))

/-- Settles O59: both puts by the ends of their steps. -/
theorem failedPutLeavesStepOne : Obligations.FailedPutLeavesStepOne := by
  rintro i s (rfl | rfl)
  · exact ⟨_, rfl, ((leavesStepOne_of_guard (by decide) (pdcchSteps_leaveStepOne s)).mono
      fun _ hws => .inl ⟨rfl, hws⟩).finishState_cases⟩
  · exact ⟨_, rfl, ((pdschSteps_leaveStepOne s).mono fun _ hws => .inr ⟨rfl, hws⟩).finishState_cases⟩

end Sys2Proof.SharedChannelPut

/-! SUPPORT. GEN_SIGNAL (R279, R280): the grid handed over for each antenna, the antennas in order, and the first transform that
is refused. -/

namespace Sys2Proof.SignalGeneration

open Sys2Proof.Machine Sys2Proof.Config Sys2Proof.Claims Sys2Proof.CommandFrames Sys2Proof.TransferFailures
  Sys2Proof.SlotConfiguration

/-! ## One grid (R279) -/

/-- Entry (l, k) of m rows of r entries, row by row. -/
theorem flatMap_range_getElem? {α : Type} (f : Nat → Nat → α) {m r l k : Nat} (hl : l < m) (hk : k < r) :
    ((List.range m).flatMap fun l => (List.range r).map (f l))[l * r + k]? = some (f l k) := by
  induction m with
  | zero => exact absurd hl (Nat.not_lt_zero l)
  | succ m ih =>
    have hlen : ((List.range m).flatMap fun l => (List.range r).map (f l)).length = m * r := by simp
    rw [List.range_succ, List.flatMap_append, List.getElem?_append, hlen]
    obtain hlt | rfl := Nat.lt_succ_iff_lt_or_eq.mp hl
    · have hin : l * r + k < m * r := by
        rw [Nat.mul_comm l, Nat.mul_comm m]
        exact DataPath.mul_add_lt_mul hlt hk
      rw [if_pos hin, ih hlt]
    · simp [hk]

theorem gridPlaces_length (c : Carrier) (a : Nat) : (gridPlaces c a).length = nsymb c.cp * (12 * c.nprb.toNat) := by
  simp [gridPlaces]

/-- R71, R279: the place of symbol l, subcarrier k. -/
theorem gridPlaces_getElem? (c : Carrier) (a : Nat) {l k : Nat} (hl : l < nsymb c.cp) (hk : k < 12 * c.nprb.toNat) :
    (gridPlaces c a)[l * (12 * c.nprb.toNat) + k]? = some (a, gridAddr c.nprb.toNat l k) :=
  flatMap_range_getElem? (fun l k => (a, gridAddr c.nprb.toNat l k)) hl hk

theorem gridOf_row_length {nm : Numerics} {ph : Nat → Phase} {a : Nat} {s : State} {row : List Sample}
    (h : row ∈ gridOf nm ph a s) : row.length = 12 * s.sa.car.nprb.toNat := by
  obtain ⟨l, hl, rfl⟩ := List.mem_map.mp h
  have hrow : (l + 1) * (12 * s.sa.car.nprb.toNat) ≤ nsymb s.sa.car.cp * (12 * s.sa.car.nprb.toNat) :=
    Nat.mul_le_mul_right _ (List.mem_range.mp hl)
  rw [Nat.succ_mul] at hrow
  rw [List.length_map, List.length_take, List.length_drop, samplesAt_length, gridPlaces_length]
  omega

theorem gridOf_getElem? {nm : Numerics} {ph : Nat → Phase} {a : Nat} {s : State} {l k : Nat} {x : Sample}
    (hl : l < nsymb s.sa.car.cp) (hk : k < 12 * s.sa.car.nprb.toNat) (hx : slotAt s a l k = some x) :
    ((gridOf nm ph a s)[l]?.bind fun row => row[k]?) = some (nm.mul x (ph l)) := by
  have hsample : (samplesAt s.mem.slotbuf s.env.draws (gridPlaces s.sa.car a))[l * (12 * s.sa.car.nprb.toNat) + k]? = some x :=
    DecodeData.samplesAt_getElem? (gridPlaces_getElem? s.sa.car a hl hk) hx
  rw [gridOf, List.getElem?_map, List.getElem?_range hl, Option.map_some, Option.bind_some, List.getElem?_map,
    List.getElem?_take_of_lt hk, List.getElem?_drop, hsample, Option.map_some]

/-- R279: the grid of an antenna is the phase-corrected one, whatever was drawn for undefined elements. -/
theorem gridOf_phased (a : Nat) (s : State) : PhasedGrid s a (gridOf num phase a s) :=
  ⟨by simp [gridOf], fun _ => gridOf_row_length, fun _ hl _ hk _ => gridOf_getElem? hl hk⟩

/-! ## The antennas in order (R279, R333) -/

/-- R279: the state after antennas 0 .. n−1 have been handed over. -/
def handedOver : Nat → State → State
  | 0, s => s
  | n + 1, s => transformed n (handedOver n s)

theorem handedOver_same (n : Nat) (s : State) : SameButEnv s (handedOver n s) := by
  induction n with
  | zero => exact .refl s
  | succ n ih => exact ih.trans ((sameButEnv_advanceDraws _ _).trans (sameButEnv_recordCall _ _ _))

theorem handedOver_script (n : Nat) (s : State) :
    (handedOver n s).env.answers.transform = s.env.answers.transform.drop n := by
  induction n with
  | zero => rfl
  | succ n ih =>
    rw [handedOver, transformed, transformCalled_eq, recordCall_env]
    exact (congrArg List.tail ih).trans List.tail_drop

/-- R333: the answer for antenna n is the n-th of the script. -/
theorem transformOk_handedOver {n : Nat} {s : State} {x : Bool} (h : s.env.answers.transform[n]? = some x) :
    transformOk (handedOver n s) = x := by
  have hhead : (handedOver n s).env.answers.transform.head? = some x := by
    rw [handedOver_script, List.head?_drop, h]
  exact nextAnswer_of_head hhead _ _

/-- R279: the grid handed over for antenna a. -/
def gridHanded (s : State) (a : Nat) : List (List Sample) := gridOf num phase a (handedOver a s)

theorem gridHanded_phased (s : State) (a : Nat) : PhasedGrid s a (gridHanded s a) := by
  unfold gridHanded
  obtain ⟨e, he⟩ := handedOver_same a s
  rw [he]
  exact gridOf_phased a { s with env := e }

/-- R67: one call more. -/
theorem handedOver_succ_history (n : Nat) (s : State) :
    (handedOver (n + 1) s).env.history = (handedOver n s).env.history ++
      [CollabEvent.transform n s.sa.car (gridHanded s n) (transformOk (handedOver n s))] := by
  obtain ⟨e, he⟩ := handedOver_same n s
  have hcar : (handedOver n s).sa.car = s.sa.car := by rw [he]
  rw [← hcar]
  rfl

theorem handedOver_history_length (n : Nat) (s : State) :
    (handedOver n s).env.history.length = s.env.history.length + n := by
  induction n with
  | zero => rfl
  | succ n ih => rw [handedOver_succ_history, List.length_append, ih, List.length_singleton, Nat.add_assoc]

/-- R67: the calls for antennas whose transforms succeed. -/
theorem handedOver_history {n : Nat} {s : State} (h : ∀ i < n, s.env.answers.transform[i]? = some true) :
    (handedOver n s).env.history = s.env.history ++
      (List.range n).map fun a => CollabEvent.transform a s.sa.car (gridHanded s a) true := by
  induction n with
  | zero => simp [handedOver]
  | succ n ih =>
    rw [handedOver_succ_history, ih fun i hi => h i (Nat.lt_succ_of_lt hi), transformOk_handedOver (h n n.lt_succ_self),
      List.range_succ, List.map_append, List.append_assoc]
    rfl

/-- R279: while the transforms succeed the antennas are handed over, and the rest go on. -/
theorem genAntennas_handedOver {n : Nat} {s : State} (h : ∀ i < n, s.env.answers.transform[i]? = some true) (rest : List Nat) :
    genAntennas (List.range n ++ rest) s = genAntennas rest (handedOver n s) := by
  induction n generalizing rest with
  | zero => rfl
  | succ n ih =>
    rw [List.range_succ, List.append_assoc, ih fun i hi => h i (Nat.lt_succ_of_lt hi)]
    exact if_pos (transformOk_handedOver (h n n.lt_succ_self))

/-- R279: with every transform succeeding the buffer is lost at the end. -/
theorem genAntennas_of_success {n : Nat} {s : State} (h : ∀ i < n, s.env.answers.transform[i]? = some true) :
    genAntennas (List.range n) s = .done (slotUndefined (handedOver n s)) := by
  have hall := genAntennas_handedOver h []
  rwa [List.append_nil] at hall

/-- R279: the first refused transform ends the command, its antenna handed over. -/
theorem genAntennas_of_refusal {n a : Nat} {s : State} (ha : a < n)
    (h : ∀ i < a, s.env.answers.transform[i]? = some true) (hrefused : s.env.answers.transform[a]? = some false) :
    genAntennas (List.range n) s =
      .raised { code := .ciCollab, step := fieldOf 4 (a + 1) } (slotUndefined (handedOver (a + 1) s)) := by
  obtain ⟨m, rfl⟩ := Nat.exists_eq_add_of_lt ha
  rw [Nat.add_assoc, List.range_add, List.range_succ_eq_map, List.map_cons, genAntennas_handedOver h]
  exact if_neg (Bool.eq_false_iff.mp (transformOk_handedOver hrefused))

/-! ## The command (R279) -/

theorem exec_genSignal (s : State) :
    exec .genSignal s = if s.sa.state = .noCarrier then .next (failed 1 0x11 0 s)
      else finish (genAntennas (List.range s.sa.car.nports.toNat) s) :=
  finish_single (beq_iff_eq (a := s.sa.state) (b := .noCarrier)) .iiState s _

theorem exec_genSignal_of_carrier {s : State} (h : s.sa.state = .carrierSet) :
    exec .genSignal s = finish (genAntennas (List.range s.sa.car.nports.toNat) s) := by
  rw [exec_genSignal, if_neg (by rw [h]; decide)]

/-- The scripted answers that a known beginning of the script gives. -/
theorem getElem?_of_take {α : Type} {script : List α} {n i : Nat} {answers : List α} (h : script.take n = answers)
    (hi : i < n) : script[i]? = answers[i]? := by
  rw [← h, List.getElem?_take_of_lt hi]

/-- Settles O60: the calls by induction over the antennas, up to the first refused transform. -/
theorem genSignal : Obligations.GenSignal := by
  refine ⟨by decide, fun s => ⟨fun hstate => (exec_genSignal s).trans (if_pos hstate), fun hstate hscript => ?_,
    fun hstate a ha hscript => ?_⟩⟩ <;> rw [exec_genSignal_of_carrier hstate]
  · have hall : ∀ i < s.sa.car.nports.toNat, s.env.answers.transform[i]? = some true := fun i hi => by
      rw [getElem?_of_take hscript hi, List.getElem?_replicate, if_pos hi]
    obtain ⟨e, he⟩ := handedOver_same s.sa.car.nports.toNat s
    have hhistory := handedOver_history hall
    rw [genAntennas_of_success hall, he]
    rw [he] at hhistory
    exact ⟨_, gridHanded s, rfl, rfl, hhistory, fun a _ => gridHanded_phased s a⟩
  · have hbefore : ∀ i < a, s.env.answers.transform[i]? = some true := fun i hi => by
      rw [getElem?_of_take hscript (Nat.lt_succ_of_lt hi), List.getElem?_append_left (by simpa using hi),
        List.getElem?_replicate, if_pos hi]
    have hrefused : s.env.answers.transform[a]? = some false := by
      rw [getElem?_of_take hscript a.lt_succ_self]
      simp
    obtain ⟨e, he⟩ := handedOver_same (a + 1) s
    have hlength := handedOver_history_length (a + 1) s
    rw [genAntennas_of_refusal ha hbefore hrefused, he]
    rw [he] at hlength
    exact ⟨_, rfl, rfl, hlength⟩

end Sys2Proof.SignalGeneration

/-! SUPPORT. Reset (R68, R350, R351), and a host access while a command is in flight (R366): what the access may leave in the
state, and where HAZ comes from. -/

namespace Sys2Proof.BusyPort

open Sys2Proof.Machine Sys2Proof.Config Sys2Proof.Claims Sys2Proof.StepCases Sys2Proof.CommandFrames Sys2Proof.HostFrames

/-! ## Reset -/

/-- Settles O2: the invariants of the memories by the law of their reset value, those of the registers by evaluation. -/
theorem resetIsGood : Obligations.ResetIsGood := by
  have hunits : unitsInv State.reset = true := by decide
  have hbuffers : slotInGrid State.reset = true ∧ bitsInArrays State.reset = true := by decide
  have hrecord : statusInv State.reset.sys = true := by decide
  have hresults : resInv State.reset.res = true ∧ rxInv State.reset.rx = true := by decide
  simp [Obligations.ResetIsGood, goodState, memoriesWf_reset, hunits, hbuffers, hrecord, hresults]

/-- Settles O3: the turn is `hardReset`, which asks nothing of the state. -/
theorem resetTurn : Obligations.ResetTurn := fun s rest hs => step_cons s .reset rest hs

/-! ## What an access during BUSY leaves (R366) -/

/-- The part of the state that an access during BUSY can touch. -/
structure PortState where
  /-- STATUS bit 3. -/
  haz : Bool
  /-- What the host's last read returned. -/
  readData : Option ReadData
  /-- How many free values the host's reads have drawn. -/
  portDraws : Nat

/-- The state with this part in place of its own. -/
def PortState.on (p : PortState) (s : State) : State :=
  { s with
    sys := { s.sys with haz := p.haz }
    env := { s.env with readData := p.readData, portDraws := p.portDraws } }

/-- R366: every access but the read of one of the four system registers is a hazard. -/
def isHazard : HostAccess → Bool
  | .regRead a => decide (4 ≤ a.toNat)
  | _ => true

theorem busyAccess_systemRead {a : BitVec 9} (h : a.toNat < 4) (s : State) :
    busyAccess (.regRead a) s = deliver (.word (regRead a s)) s := if_pos h

theorem busyAccess_refusedRead {a : BitVec 9} (h : ¬ a.toNat < 4) (s : State) :
    busyAccess (.regRead a) s = hazard (deliver (.word (freeReadWord s.env.portDraws)) (portDrawn 1 s)) := if_neg h

theorem deliver_eq_on (d : ReadData) (s : State) :
    deliver d s = PortState.on ⟨s.sys.haz, some d, s.env.portDraws⟩ s := rfl

/-- R366: a refused read. -/
theorem hazard_deliver_eq_on (d : ReadData) (s : State) :
    hazard (deliver d (portDrawn 1 s)) = PortState.on ⟨true, some d, s.env.portDraws + 1⟩ s := rfl

/-- R366: a refused write. -/
theorem hazard_eq_on (s : State) : hazard s = PortState.on ⟨true, s.env.readData, s.env.portDraws⟩ s := rfl

/-- R366: an access during BUSY touches only the port's part of the state, and sets HAZ where it is a hazard. -/
theorem busyAccess_eq_on (x : HostAccess) (s : State) :
    ∃ d n, busyAccess x s = PortState.on ⟨s.sys.haz || isHazard x, d, n⟩ s := by
  cases x with
  | regRead a =>
    by_cases h : a.toNat < 4
    · have hno : isHazard (.regRead a) = false := decide_eq_false (Nat.not_le.mpr h)
      rw [hno, Bool.or_false]
      exact ⟨_, _, (busyAccess_systemRead h s).trans (deliver_eq_on _ s)⟩
    · have hyes : isHazard (.regRead a) = true := decide_eq_true (Nat.not_lt.mp h)
      rw [hyes, Bool.or_true]
      exact ⟨_, _, (busyAccess_refusedRead h s).trans (hazard_deliver_eq_on _ s)⟩
  | readSample | readBits | readCe =>
    simp only [isHazard, Bool.or_true]
    exact ⟨_, _, hazard_deliver_eq_on _ s⟩
  | regWrite | writeSample | writeBits | writeCe =>
    simp only [isHazard, Bool.or_true]
    exact ⟨_, _, hazard_eq_on s⟩

theorem hostAccess_busy {s : State} (hb : s.sys.busy = true) (x : HostAccess) :
    hostAccess x s = .next (busyAccess x s) := by rw [hostAccess_next, if_pos hb]

/-- Settles O14: the access touches the port's part alone, and a read of a system register delivers it. -/
theorem busyAccessIsRefused : Obligations.BusyAccessIsRefused := by
  intro x s hb
  obtain ⟨d, n, h⟩ := busyAccess_eq_on x s
  refine ⟨busyAccess x s, hostAccess_busy hb x, ?_, ?_⟩
  · rw [h]
    cases x <;> rfl
  · rintro a rfl ha
    rw [busyAccess_systemRead ha]
    rfl

/-! ## Where HAZ comes from (R23, R366) -/

/-- R366: over a step that is not a reset HAZ keeps its value, or a host access during BUSY has set it. -/
theorem haz_of_step {s t : State} (h : step s = .next t) (hr : s.env.schedule.head? ≠ some .reset) :
    t.sys.haz = s.sys.haz ∨
      t.sys.haz = true ∧ s.sys.busy = true ∧ ∃ x, s.env.schedule.head? = some (.host x) := by
  cases step_cases h with
  | reset hturn => exact absurd hturn hr
  | idle => exact .inl rfl
  | command _ _ _ ht => exact .inl (exec_frame ht).haz
  | reserved => exact .inl rfl
  | @busyHost x hturn hb =>
    obtain ⟨-, -, -, -, -, -, -, hsys | hsys⟩ := busyAccess_frame x (turnGone s) <;> rw [hsys]
    · exact .inl rfl
    · exact .inr ⟨rfl, hb, x, hturn⟩
  | @idleHost x =>
    obtain hsys | ⟨w, hsys⟩ := idleAccess_sys x (turnGone s) <;> rw [hsys] <;> exact .inl rfl

/-- Settles O20: HAZ is kept, or set by a host access during BUSY. -/
theorem hazIsSticky : Obligations.HazIsSticky := by
  intro s t h hr
  obtain hkept | ⟨hset, hb, hhost⟩ := haz_of_step h hr
  · exact ⟨hkept.trans, fun hclear ht => by simp [hkept, hclear] at ht⟩
  · exact ⟨fun _ => hset, fun _ _ => ⟨hb, hhost⟩⟩

end Sys2Proof.BusyPort

/-! SUPPORT. The command in flight does not look at what a host access during BUSY leaves (R366): every rule, run on a state
whose port part is another, ends as before but for that part. -/

namespace Sys2Proof.UndisturbedCommand

open Sys2Proof.Machine Sys2Proof.Config Sys2Proof.BusyPort

/-- The end of a rule, with another port part. -/
def onEnd (p : PortState) : CmdEnd → CmdEnd
  | .done s => .done (p.on s)
  | .raised e s => .raised e (p.on s)

/-- R318: completion does not look at the port part. -/
theorem finishState_onEnd (p : PortState) (r : CmdEnd) : finishState (onEnd p r) = p.on (finishState r) := by
  cases r <;> rfl

/-- R318: two outcomes complete one end of a rule, the second with another port part. -/
def CompletesAlike (p : PortState) (o o' : Host.Outcome State Fault Refusal) : Prop :=
  ∃ r, o = finish r ∧ o' = finish (onEnd p r)

theorem completesAlike_finish {p : PortState} {r r' : CmdEnd} (h : r' = onEnd p r) :
    CompletesAlike p (finish r) (finish r') := ⟨r, rfl, congrArg finish h⟩

theorem CompletesAlike.next {p : PortState} {o o' : Host.Outcome State Fault Refusal} (h : CompletesAlike p o o') :
    ∃ t, o = .next t ∧ o' = .next (p.on t) := by
  obtain ⟨r, rfl, rfl⟩ := h
  exact ⟨finishState r, rfl, congrArg _ (finishState_onEnd p r)⟩

section
variable (p : PortState) (s : State)

/-! ## The parts that rules are built of -/

/-- R316: a computation that does not look at the port part decides whether the rest of the rule runs. -/
theorem orRaise_on {α : Type} {x : Except Raised α} {k k' : α → CmdEnd} (hk : ∀ y, k' y = onEnd p (k y)) :
    orRaise x (p.on s) k' = onEnd p (orRaise x s k) := by
  cases x with
  | ok y => exact hk y
  | error e => rfl

theorem ite_on {c : Prop} [Decidable c] {r₁ r₂ r₁' r₂' : CmdEnd} (h₁ : r₁' = onEnd p r₁) (h₂ : r₂' = onEnd p r₂) :
    (if c then r₁' else r₂') = onEnd p (if c then r₁ else r₂) := by
  split <;> assumption

/-- R274, R276: a rule of two steps. -/
theorem andThen_on {r r' : CmdEnd} {k : State → CmdEnd} (hr : r' = onEnd p r) (hk : ∀ t, k (p.on t) = onEnd p (k t)) :
    andThen r' k = onEnd p (andThen r k) := by
  subst hr
  cases r with
  | done t => exact hk t
  | raised e t => rfl

/-! ## The Resource Allocation Engine -/

theorem dci2GrantRule_on (dir : Bool) : dci2GrantRule dir (p.on s) = onEnd p (dci2GrantRule dir s) := by
  have hargs : (p.on s).args = s.args := rfl
  rw [dci2GrantRule, dci2GrantRule, hargs]
  cases dci2Grant dir s.args <;> rfl

/-! ## The Data Pipe -/

theorem pipeInitRule_on (role : Role) : pipeInitRule role (p.on s) = onEnd p (pipeInitRule role s) :=
  orRaise_on p s fun _ => ite_on p rfl rfl

theorem encodeCodedBits_on : encodeCodedBits (p.on s) = encodeCodedBits s := rfl
theorem encodeSequence_on : encodeSequence (p.on s) = encodeSequence s := rfl

theorem encodeBody_on (step : BitVec 4) : encodeBody step (p.on s) = onEnd p (encodeBody step s) := by
  rw [encodeBody, encodeBody, encodeCodedBits_on, encodeSequence_on]
  cases encodeCodedBits s with
  | none => rfl
  | some b => cases encodeSequence s <;> rfl

theorem encodeRule_on (step : BitVec 4) : encodeRule step (p.on s) = onEnd p (encodeRule step s) :=
  orRaise_on p s fun _ => ite_on p (orRaise_on p s fun _ => encodeBody_on p s step) rfl

theorem decodeLayers_on : decodeLayers (p.on s) = decodeLayers s := rfl
theorem decodeSequence_on : decodeSequence (p.on s) = decodeSequence s := rfl
theorem decodePayload_on : decodePayload (p.on s) = decodePayload s := rfl

theorem decodeBody_on : decodeBody (p.on s) = onEnd p (decodeBody s) := by
  rw [decodeBody, decodeBody, decodeLayers_on, decodeSequence_on, decodePayload_on]
  cases decodeLayers s with
  | none => rfl
  | some xh =>
    cases decodeSequence s with
    | none => rfl
    | some c => cases decodePayload s <;> rfl

theorem decodeRule_on : decodeRule (p.on s) = onEnd p (decodeRule s) :=
  orRaise_on p s fun _ => ite_on p (orRaise_on p s fun _ => decodeBody_on p s) rfl

/-! ## The Slot Assembler -/

theorem pdcchPlace_on (step : BitVec 4) (ans : Option (List (Nat × Nat × Sample))) :
    pdcchPlace step ans (p.on s) = onEnd p (pdcchPlace step ans s) := by
  cases ans with
  | none => rfl
  | some w => exact ite_on p rfl rfl

theorem pdcchStep1_on : pdcchStep1 (p.on s) = onEnd p (pdcchStep1 s) := pdcchPlace_on p (pdcchDmrsCalled s) 1 _
theorem pdcchStep2_on : pdcchStep2 (p.on s) = onEnd p (pdcchStep2 s) := pdcchPlace_on p (pdcchEncodeCalled s) 2 _

theorem dmrsAnswer_on : dmrsAnswer (p.on s) = dmrsAnswer s := rfl

theorem pdschStep1_on : pdschStep1 (p.on s) = onEnd p (pdschStep1 s) := by
  refine orRaise_on p s fun _ => ?_
  rw [dmrsAnswer_on]
  cases dmrsAnswer s <;> rfl

/-- R279: an antenna is handed over alike, so the rest of the antennas starts alike. -/
theorem genAntennas_on (antennas : List Nat) : genAntennas antennas (p.on s) = onEnd p (genAntennas antennas s) := by
  induction antennas generalizing s with
  | nil => rfl
  | cons a rest ih => exact ite_on p (ih (transformed a s)) rfl

/-! ## Every command -/

/-- R366: every command completes a rule that does not look at the port part. -/
theorem exec_on (i : Instr) : CompletesAlike p (exec i s) (exec i (p.on s)) := by
  cases i with
  | rateFromMcs | modFromMcs | fillTb1 | pipeFree => exact completesAlike_finish rfl
  | slotNre | fillTb0 | saSetCoreset | baseZero => exact completesAlike_finish (orRaise_on p s fun _ => rfl)
  | tbs =>
    refine completesAlike_finish (orRaise_on p s fun _ => ?_)
    have hargs : (p.on s).args = s.args := rfl
    rw [hargs]
    cases opTbs s.args.op <;> rfl
  | dci2GrantDl => exact completesAlike_finish (dci2GrantRule_on p s false)
  | dci2GrantUl => exact completesAlike_finish (dci2GrantRule_on p s true)
  | pipeInitTx => exact completesAlike_finish (pipeInitRule_on p s .transmitter)
  | pipeInitRx => exact completesAlike_finish (pipeInitRule_on p s .receiver)
  | pipeSetCarrier => exact completesAlike_finish (orRaise_on p s fun _ => ite_on p (ite_on p rfl rfl) rfl)
  | encode => exact completesAlike_finish (encodeRule_on p s 0)
  | decode => exact completesAlike_finish (decodeRule_on p s)
  | saSetCarrier => exact completesAlike_finish (orRaise_on p s fun _ => ite_on p (ite_on p rfl rfl) rfl)
  | pdcchPut =>
    exact completesAlike_finish (orRaise_on p s fun _ => andThen_on p (pdcchStep1_on p s) (pdcchStep2_on p))
  | pdschPut => exact completesAlike_finish (andThen_on p (pdschStep1_on p s) fun t => encodeRule_on p t 2)
  | genSignal => exact completesAlike_finish (orRaise_on p s fun _ => genAntennas_on p s _)

end

/-- Settles O15: the access leaves a port part, which the command does not look at and carries to its end. -/
theorem busyAccessDoesNotDisturbTheCommand : Obligations.BusyAccessDoesNotDisturbTheCommand := by
  intro x i s hb
  obtain ⟨d, n, haccess⟩ := busyAccess_eq_on x s
  obtain ⟨t, hrun, hrun'⟩ := (exec_on ⟨s.sys.haz || isHazard x, d, n⟩ s i).next
  exact ⟨_, t, hostAccess_busy hb x, hrun, haccess ▸ hrun'⟩

end Sys2Proof.UndisturbedCommand
